-- ==== Sys2Proof/Word.lean ====
section
/-! DEFINITION. The word types of the RDL-480: the widths the manual gives to bytes, times and port numbers. -/

namespace Sys2Proof

/-- One byte of a frame, an image or a control transaction (12_formats.md). -/
abbrev Byte := BitVec 8

/-- A value of the free-running 32-bit ms time (00_scope.md, Time): ages are differences modulo 2^32. -/
abbrev MsTime := BitVec 32

/-- A 16-bit number of a probe or an incident, or the gate epoch (R69, R149, R154): it wraps. -/
abbrev Word16 := BitVec 16

/-- A guard port 0..47 (R1). -/
abbrev Port := Fin 48

/-- A fabric port 0..31 as a fabric names it on its own tap link and poll line (section 1.1). -/
abbrev FabricPort := Fin 32

end Sys2Proof
end

