-- ==== Sys2Proof/Config.lean ====
section
/-! DEFINITION. What the manual fixes as a number of the part, and the one value it leaves open. -/

namespace Sys2Proof.Config

/-- Slots of one analysis FIFO (R23). -/
def fifoSlots : Nat := 16

/-- Places of one probe transmit queue (R27). -/
def queuePlaces : Nat := 4

/-- Entries of the probe list (R71). -/
def listEntries : Nat := 64

/-- Records the incident ring holds at most (R155). -/
def ringRecords : Nat := 32

/-- Places of the fingerprint table: 256 sets of 4 ways (R99). -/
def tablePlaces : Nat := 1024

/-- Profile fields of the image, numbered 0..117 (R189). -/
def profileFields : Nat := 118

/-- Ceiling of a port level (R33). -/
def levelMax : Nat := 65535

/-- Ceiling of the class level (R48). -/
def classMax : Nat := 1048575

/-- FREE VALUE (log entry 12): the 32-bit tap FCS that a transmitter puts behind a tagged frame (R27). The
manual names the FCS and does not give its computation. No command's effect on the state reads it. -/
opaque tapFcs : List Byte → BitVec 32

end Sys2Proof.Config
end

