-- ==== Sys2Proof/Syntax.lean ====
section
/-! DEFINITION. The commands of the block: one constructor of `Instr` for each row of spec/opcode_table.json.

The RDL-480 has no instructions. A command is one whole and indivisible step of spec/95_what_each_step_holds.md:
an event on a line, a tick of the time base, a request taken by the block that owns it, or one command of a
control transaction. The operands say which port, line or request the step concerns and what it carries. -/

namespace Sys2Proof

/-- A tap link, and the gate poll line of the same fabric (section 8 introduction). -/
inductive TapId where
  | a
  | b
  deriving DecidableEq, Repr

/-- A control port: CP0 the management processor, CP1 the desk panel controller (10_control_ports.md). -/
inductive CtlPort where
  | cp0
  | cp1
  deriving DecidableEq, Repr

/-- The seven automatic causes that the action ladder governs, in the ladder's order (R129). -/
inductive LadderCause where
  | stormCut
  | stormShut
  | loop
  | selfLoop
  | echo
  | foreign
  | classStorm
  deriving DecidableEq, Repr

/-- A cause that is taken: its name, and which of the waiting causes of that name on the port, the oldest being 0. The
manual lets them be taken in either order (R142, log entry 3). -/
structure CauseTurn where
  cause : LadderCause
  turn : Nat
  deriving DecidableEq, Repr

/-- A PINNED_LOOP that is taken: its port, and which of the waiting ones of the port, the oldest being 0 (R142, log
entry 3). -/
structure LoopTurn where
  port : Port
  turn : Nat
  deriving DecidableEq, Repr

/-- The order in which the port meters and the class meter take one frame or one tick: the manual allows either
(R48 "neither waits on the other", R52, log entry 10). -/
inductive MeterOrder where
  | portsFirst
  | classFirst
  deriving DecidableEq, Repr

/-- The order of the class interval expiry and of the drain of the same tick: either may be taken first (R53, log entry 10). -/
inductive ExpiryOrder where
  | drainFirst
  | expiryFirst
  deriving DecidableEq, Repr

/-- A frame as a tap receiver sees it (R18, R184): the first bytes as they stand on the tap, tag included (100 of
them, or all of a shorter frame), the tap length in bytes, and whether the tap FCS matches (log entry 12). -/
structure TapFrame where
  bytes : List Byte
  length : Nat
  fcsGood : Bool
  deriving DecidableEq, Repr

/-- The end of a transaction: its control port, and the number of bytes that have been shifted out in full since the
command executed, the turnaround byte among them (R168, R169). -/
structure RiseEvent where
  cp : CtlPort
  shifted : Nat
  deriving DecidableEq, Repr

/-- The two moments of READ_IDENT, READ_STATUS, READ_EVENTS and READ_FIND on a control port (R168): the command executes,
or its response begins, which is the first bit of the status byte. -/
inductive ReadEvent where
  | command (cp : CtlPort)
  | begins (cp : CtlPort)
  deriving DecidableEq, Repr

/-- The two moments of READ_COUNTER (R164, R168): the command executes, or its response begins. -/
inductive CounterEvent where
  | command (counter : Byte)
  | begins
  deriving DecidableEq, Repr

/-- The two moments of READ_PORT and READ_PORTS (R8): the command executes, or the first byte of a view begins. -/
inductive ViewEvent where
  | command (port : Byte)
  | viewBegins
  deriving DecidableEq, Repr

/-- The two moments of READ_PROFILE (R171): the command executes, or the first byte of a field begins. -/
inductive ProfileEvent where
  | command (start : Byte)
  | fieldBegins
  deriving DecidableEq, Repr

/-- The moments of READ_INCIDENTS that no other row names (R158 to R160, R168): the command executes, its response begins,
the first byte of a record begins, or so many bytes of the transaction have been shifted out in full, the turnaround byte
among them. -/
inductive IncidentsEvent where
  | command (n : Byte)
  | begins
  | recordBegins
  | shiftedOut (bytes : Nat)
  deriving DecidableEq, Repr

/-- The moments of FIND (R112, R113): a control port's command with its target byte, or the scan's progress to
the place given (every earlier place has then been visited). -/
inductive FindEvent where
  | command (cp : CtlPort) (target : Byte)
  | scanTo (place : Nat)
  deriving DecidableEq, Repr

/-- The commands, in the order of spec/opcode_table.json. -/
inductive Instr where
  /-- RESET_N_ASSERT: RESET_N is held low (R178). -/
  | resetAssert
  /-- RESET_N_RELEASE: RESET_N is released (R178). -/
  | resetRelease
  /-- LOAD_END: the loader's read ends; `acked` holds the bytes the memory acknowledged, in order (R178). -/
  | loadEnd (acked : List Byte)
  /-- TAP_LINK_UP: signal detection of a tap link succeeds (R17). -/
  | tapLinkUp (t : TapId)
  /-- TAP_LINK_DOWN: a tap link loses clock or alignment (R29, R30). -/
  | tapLinkDown (t : TapId)
  /-- TAP_FRAME_RECEIVED: a frame has been received whole (R18). -/
  | tapFrame (t : TapId) (f : TapFrame) (order : MeterOrder)
  /-- ANALYSIS_TAKE: the free analysis path takes the next head frame, or the analysis of the frame that it holds ends
(R25). -/
  | analysisTake
  /-- MS_TICK: one tick of the 1 ms time base (R34). -/
  | msTick (order : MeterOrder)
  /-- TENTH_TICK: the tenth tick due at this ms tick (R118). -/
  | tenthTick
  /-- SLOT_EXPIRY: the slot timer expires (R57). -/
  | slotExpiry
  /-- CLASS_INTERVAL_EXPIRY: the class interval timer expires (R53). -/
  | classIntervalExpiry (order : ExpiryOrder)
  /-- DECAY_EXPIRY: the decay timer expires (R107). -/
  | decayExpiry
  /-- PROBE_RETIRE_LIFE: a SENT head entry reaches its life (R73). -/
  | probeRetireLife
  /-- QUEUED_ENTRY_LIFE: a QUEUED head entry reaches its life (R74). -/
  | queuedEntryLife
  /-- URGENT_REQUEST: the scheduler takes an urgent request handed for a port, with or without the confirm mark (R60). -/
  | urgentRequest (p : Port) (confirm : Bool)
  /-- SERVING_ATTEMPT: the scheduler makes a pending serving attempt for a tap (R63). -/
  | servingAttempt (t : TapId)
  /-- PROBE_SEND_START: the transmitter of a tap begins its head probe (R28). -/
  | probeSendStart (t : TapId)
  /-- PROBE_DEPARTURE: the last byte of the probe being sent leaves the transmitter (R28). -/
  | probeDeparture (t : TapId)
  /-- LINK_UP: the gate controller takes a link change to UP (R119). -/
  | linkUp (p : Port)
  /-- LINK_DOWN: the gate controller takes a link change to DOWN (R120). -/
  | linkDown (p : Port)
  /-- WATCH_CROSSING: the gate controller takes a WATCH crossing (R123). -/
  | watchCrossing (p : Port)
  /-- DOWNWARD_CROSSING: the gate controller takes a downward crossing of R (R46). -/
  | downwardCrossing (p : Port)
  /-- RISE_THROUGH_R: the gate controller takes a rise through R (R46). -/
  | riseThroughR (p : Port)
  /-- ECHO_SCORE_CHANGE: the gate controller takes an echo score change to or from 0 (R108). -/
  | echoScoreChange (p : Port)
  /-- CAUSE_TAKEN: the gate controller takes a cause raised on a port (R130). -/
  | causeTaken (p : Port) (c : CauseTurn)
  /-- PINNED_LOOP: the gate controller takes a PINNED_LOOP request (R91). -/
  | pinnedLoop (l : LoopTurn)
  /-- CLASS_NO_CANDIDATE: the gate controller takes a CLASS_NO_CANDIDATE request (R54). -/
  | classNoCandidate
  /-- LISTEN_COMPLETION: the gate controller takes a listen completion (R121). -/
  | listenCompletion (p : Port)
  /-- LISTEN_TIMEOUT: a port's listen timer reaches the listen limit (R122). -/
  | listenTimeout (p : Port)
  /-- RELEASE_TIMER_EXPIRY: a port's release timer reaches Tr (R125). -/
  | releaseTimerExpiry (p : Port)
  /-- GOOD_STANDING_EXPIRY: a port's good-standing timer reaches Tg (R124). -/
  | goodStandingExpiry (p : Port)
  /-- HOLD_EXPIRY: a port's hold has reached 0 at a tenth tick (R126). -/
  | holdExpiry (p : Port)
  /-- POLL_START: a start condition on a poll line (R143). -/
  | pollStart (l : TapId)
  /-- POLL_WRITE_END: the last check bit; `links` are the 32 link bits and `check` the 4 check bits of the write phase,
the first received the most significant (R144, R185). -/
  | pollWriteEnd (l : TapId) (links : BitVec 32) (check : BitVec 4)
  /-- POLL_COMPLETE: the last code bit (R146). -/
  | pollComplete (l : TapId)
  /-- POLL_STOP: a stop condition on a poll line (R148). -/
  | pollStop (l : TapId)
  /-- SILENCE_EXPIRY: the silence timer of a line expires (R151). -/
  | silenceExpiry (l : TapId)
  /-- LED_REFRESH: the refresh due at this ms tick takes its codes (R166). -/
  | ledRefresh
  /-- LED_LATCH: the latch after the last code (R166). -/
  | ledLatch
  /-- CHIP_SELECT_FALL: chip select falls on a control port (R168). -/
  | chipSelectFall (cp : CtlPort)
  /-- CHIP_SELECT_RISE: chip select rises on a control port (R168, R169). -/
  | chipSelectRise (ev : RiseEvent)
  /-- UNKNOWN_COMMAND: a command byte that names no command (R169). -/
  | unknownCommand (cp : CtlPort) (byte : Byte)
  /-- READ_IDENT (R172, R187). -/
  | readIdent (ev : ReadEvent)
  /-- READ_STATUS (R187). -/
  | readStatus (ev : ReadEvent)
  /-- DEFERRED_PORT_EMPTIED: byte 3 of a READ_STATUS response has been shifted out in full (R68). -/
  | deferredPortEmptied (cp : CtlPort)
  /-- READ_PORT (R8). -/
  | readPort (cp : CtlPort) (ev : ViewEvent)
  /-- READ_PORTS (R8). -/
  | readPorts (cp : CtlPort) (ev : ViewEvent)
  /-- SET_MODE_HELD: SET_MODE with mode byte 2 (R138). -/
  | setModeHeld (cp : CtlPort) (port : Byte)
  /-- SET_MODE_PINNED: SET_MODE with mode byte 1 (R139). -/
  | setModePinned (cp : CtlPort) (port : Byte)
  /-- SET_MODE_AUTO: SET_MODE with mode byte 0 (R140); a mode byte of 3 or more, which names no mode and for which
  the table has no row of its own, is carried here too (R171, log entry 9). -/
  | setModeAuto (cp : CtlPort) (port mode : Byte)
  /-- RELEASE with its port and forgive flag bytes (R136). -/
  | release (cp : CtlPort) (port forgive : Byte)
  /-- RELEASE_ALL with its forgive flag byte (R137). -/
  | releaseAll (cp : CtlPort) (forgive : Byte)
  /-- TAKE_HOLD (R175). -/
  | takeHold (cp : CtlPort)
  /-- DROP_HOLD (R175). -/
  | dropHold (cp : CtlPort)
  /-- BREAK_HOLD (R176). -/
  | breakHold (cp : CtlPort)
  /-- READ_INCIDENTS (R158). -/
  | readIncidents (cp : CtlPort) (ev : IncidentsEvent)
  /-- LOST_COUNT_LOWERED: the lost count byte has been shifted out in full (R158). -/
  | lostCountLowered (cp : CtlPort)
  /-- INCIDENT_CONSUMED: a record's last byte has been shifted out (R158). -/
  | incidentConsumed (cp : CtlPort)
  /-- READ_EVENTS (R163). -/
  | readEvents (ev : ReadEvent)
  /-- EVENT_FLAGS_CLEARED: the flags field has been shifted out in full (R163). -/
  | eventFlagsCleared (cp : CtlPort)
  /-- WRITE_MASK with its two-byte mask (R162, R185). -/
  | writeMask (cp : CtlPort) (mask : Word16)
  /-- SELECT_COUNTER with its counter, kind and filter bytes (R164). -/
  | selectCounter (cp : CtlPort) (counter kind filter : Byte)
  /-- READ_COUNTER (R164). -/
  | readCounter (cp : CtlPort) (ev : CounterEvent)
  /-- READ_PROFILE (R171). -/
  | readProfile (cp : CtlPort) (ev : ProfileEvent)
  /-- WRITE_PROFILE with its starting index, field count and value bytes (R13, R171). -/
  | writeProfile (cp : CtlPort) (start count : Byte) (values : List Byte)
  /-- SAVE_PROFILE (R180). -/
  | saveProfile (cp : CtlPort)
  /-- SAVE_PAGE_DONE: the memory acknowledges a page's write completion (R180). -/
  | savePageDone
  /-- SAVE_PAGE_TIMEOUT: a page is not acknowledged complete 25 ms after its last byte (R180). -/
  | savePageTimeout
  /-- SAVE_NACK: the memory gives no acknowledge to a byte of a page (R180). -/
  | saveNack
  /-- FIND (R112, R113). -/
  | find (ev : FindEvent)
  /-- FIND_COMPLETE: the scan reaches the last place of set 255 (R114). -/
  | findComplete
  /-- READ_FIND (R115). -/
  | readFind (ev : ReadEvent)
  /-- RESTART_ENGINE with its hold flag byte (R181). -/
  | restartEngine (cp : CtlPort) (hold : Byte)
  /-- RELEASE_ENGINE (R182). -/
  | releaseEngine (cp : CtlPort)
  deriving DecidableEq, Repr

end Sys2Proof
end

