-- ==== Sys2Proof/Machine/State.lean ====
section
/-! DEFINITION. The state of the RDL-480 as plain data, with its value right after power-on reset.

Two fields the manual lists in the port record are not stored but computed, because the manual derives them:
`mapped` from the tap windows (R12) and the presented code from mode and state (R5). Meter profile selection and
probe slot of a port stand in its per-port profile byte (R2: their owner is the profile store). -/

namespace Sys2Proof.Machine

/-! ### Names -/

/-- A port's mode (R4). -/
inductive Mode where
  | auto
  | pinned
  | held
  deriving DecidableEq, Repr

/-- A port's state (R2), in the order of its codes 0..5 (R186). `opened` is the manual's OPEN. -/
inductive PState where
  | down
  | listen
  | opened
  | watch
  | cut
  | shut
  deriving DecidableEq, Repr

/-- A gate code (R5). `opened` is the manual's OPEN. -/
inductive GateCode where
  | opened
  | cut
  | shut
  deriving DecidableEq, Repr

/-- An action of the ladder (R129). -/
inductive Action where
  | ignore
  | report
  | cut
  | shut
  deriving DecidableEq, Repr

/-- A cause as an incident record or a last cause carries it (R154): the seven of the ladder and four more. -/
inductive Cause where
  | ladder (c : LadderCause)
  | listenTimeout
  | pinnedLoop
  | classNoCandidate
  | manual
  deriving DecidableEq, Repr

/-- The action of an incident record (R154): REPORT, CUT, SHUT, or for MANUAL the command (R186). -/
inductive IncAction where
  | report
  | cut
  | shut
  | release
  | releaseAll
  | setHeld
  | setPinned
  | setAuto
  deriving DecidableEq, Repr

/-- The purpose of a probe list entry (R71). -/
inductive Purpose where
  | routine
  | listen
  | confirm
  deriving DecidableEq, Repr

/-- The condition of a probe list entry (R71). -/
inductive Condition where
  | queued
  | sent
  deriving DecidableEq, Repr

/-- The sixteen census kinds, in the order of the table of R165. -/
inductive CensusKind where
  | floodFrames
  | floodUnits
  | probesSent
  | probesDeferred
  | returnsValid
  | returnsStale
  | foreignProbes
  | malformedProbe
  | echoes
  | repeats
  | evictions
  | unanalysed
  | tapErrors
  | tagErrors
  | gateClosings
  | pollErrors
  deriving DecidableEq, Repr

/-- The nine event flags (R161). -/
inductive EventFlag where
  | incident
  | ringLoss
  | findDone
  | tapPressure
  | tapDown
  | pollSilent
  | classWarn
  | holdBroken
  | storeStatus
  deriving DecidableEq, Repr

/-- The status words of a control transaction (R185, 00_scope.md). -/
inductive Status where
  | ok
  | pending
  | busy
  | denied
  | held
  | badArg
  | unknown
  | overlap
  deriving DecidableEq, Repr

/-- The phase of a control transaction (R168). -/
inductive TransPhase where
  | idle
  | receiving
  | answering
  deriving DecidableEq, Repr

/-- The condition of the profile store (R177). -/
inductive StoreCondition where
  | loading
  | ready
  | saving
  deriving DecidableEq, Repr

/-- The result of the power-on load (R177). -/
inductive LoadResult where
  | none
  | absent
  | blank
  | bad
  | loaded
  deriving DecidableEq, Repr

/-- The result of the last save (R177). -/
inductive SaveResult where
  | none
  | saved
  | failed
  deriving DecidableEq, Repr

/-- The code of one port indicator (R166). -/
inductive LedCode where
  | off
  | steady
  | blink
  deriving DecidableEq, Repr

/-! ### Pairs keyed by tap or by control port -/

/-- One value for each tap (or each poll line). -/
structure PerTap (α : Type) where
  a : α
  b : α
  deriving DecidableEq, Repr

/-- The value of a tap. -/
def PerTap.get {α : Type} (x : PerTap α) : TapId → α
  | .a => x.a
  | .b => x.b

/-- The pair with one tap's value replaced. -/
def PerTap.set {α : Type} (x : PerTap α) (t : TapId) (v : α) : PerTap α :=
  match t with
  | .a => { x with a := v }
  | .b => { x with b := v }

/-- One value for each control port. -/
structure PerCp (α : Type) where
  cp0 : α
  cp1 : α
  deriving DecidableEq, Repr

/-- The value of a control port. -/
def PerCp.get {α : Type} (x : PerCp α) : CtlPort → α
  | .cp0 => x.cp0
  | .cp1 => x.cp1

/-- The pair with one control port's value replaced. -/
def PerCp.set {α : Type} (x : PerCp α) (c : CtlPort) (v : α) : PerCp α :=
  match c with
  | .cp0 => { x with cp0 := v }
  | .cp1 => { x with cp1 := v }

/-! ### The profile -/

/-- A tap window (R9): count 0 disables it. -/
structure Window where
  first : Nat
  count : Nat
  guard : Nat
  deriving DecidableEq, Repr

/-- A meter profile (R37). -/
structure MeterProfile where
  d : Nat
  w : Nat
  c : Nat
  s : Nat
  r : Nat
  deriving DecidableEq, Repr

/-- A per-port profile byte (R189): meter profile, probe slot and stored mode. -/
structure PortByte where
  meter : Fin 4
  slot : Fin 16
  mode : Mode
  deriving DecidableEq, Repr

/-- The on and off times of an indicator pattern, in tenths (R167). -/
structure LedPattern where
  on : Nat
  off : Nat
  deriving DecidableEq, Repr

/-- The profile: every parameter of section 11.1, in image order (R189). -/
structure Profile where
  chassisNumber : BitVec 32
  chassisAddress : BitVec 48
  groupAddress : BitVec 48
  probeType : Word16
  tapTagType : Word16
  /-- Windows A0, A1, B0, B1 (R9). -/
  windows : Vector Window 4
  meters : Vector MeterProfile 4
  portBytes : Vector PortByte 48
  /-- Class drain per ms, warning threshold, cut threshold and interval (R55). -/
  dc : Nat
  wc : Nat
  cc : Nat
  ti : Nat
  /-- Slot length (R57) and probe life (R73), ms. -/
  ts : Nat
  lp : Nat
  /-- Listen limit, release time (ms) and good standing (s) (R128). -/
  listenLimit : Nat
  tr : Nat
  tg : Nat
  /-- Hold base and hold maximum, tenths (R127). -/
  hb : Nat
  hmax : Nat
  /-- Echo window, repeat limit, echo limit, decay time (R111). -/
  we : Nat
  nr : Nat
  ne : Nat
  td : Nat
  /-- Report hold-off, s (R134). -/
  holdOff : Nat
  /-- Poll silence, ms (R151). -/
  tsil : Nat
  /-- The action ladder, in the order of `LadderCause` (R129). -/
  ladder : Vector Action 7
  /-- Indicator patterns LISTEN, CUT, SHUT, HELD (R167). -/
  leds : Vector LedPattern 4
  cp1Attached : Bool
  deriving DecidableEq, Repr

/-! ### The port record -/

/-- One of the three ms timers of the gate controller (R3). `due` is set by the tick at which the count reaches
its limit, and is the model's own mark of an expiry not yet taken (log entry 2). -/
structure GateTimer where
  running : Bool
  count : Nat
  due : Bool
  deriving DecidableEq, Repr

/-- A timer that is stopped and reads 0 (R3). -/
def GateTimer.stopped : GateTimer := ⟨false, 0, false⟩

/-- A timer just started at 0 (R118). -/
def GateTimer.started : GateTimer := ⟨true, 0, false⟩

/-- A port record (R2), with the calm mark (R42) and the confirm mark (R61) of the port. -/
structure PortRec where
  linkUp : Bool
  lastLinkUp : Option MsTime
  mode : Mode
  state : PState
  delivered : GateCode
  level : Nat
  calm : Bool
  backlog : Nat
  confirm : Bool
  listenProbe : Option Word16
  echoScore : Nat
  penalty : Nat
  hold : Nat
  listenTimer : GateTimer
  releaseTimer : GateTimer
  goodTimer : GateTimer
  lastCause : Option Cause
  lastReport : Option MsTime
  deriving DecidableEq, Repr

/-- A port record after power-on reset (R2, R42, R61). -/
def PortRec.reset : PortRec where
  linkUp := false
  lastLinkUp := none
  mode := .auto
  state := .down
  delivered := .cut
  level := 0
  calm := true
  backlog := 3
  confirm := false
  listenProbe := none
  echoScore := 0
  penalty := 0
  hold := 0
  listenTimer := .stopped
  releaseTimer := .stopped
  goodTimer := .stopped
  lastCause := none
  lastReport := none

/-! ### Requests handed from block to block -/

/-- A request handed to the gate controller and not yet taken (R117, log entry 3). -/
inductive GateReqKind where
  /-- A link change to UP, from the poll service (R7). -/
  | linkUp
  /-- A link change to DOWN, from the poll service (R7). -/
  | linkDown
  /-- A WATCH crossing (R44). -/
  | watch
  /-- A downward crossing of R (R46). -/
  | downward
  /-- A rise through R (R46). -/
  | rise
  /-- A cause with the parts its raiser hands with it (R132). -/
  | cause (c : LadderCause) (partner : Option Port) (level : Option Nat) (delay : Option Word16)
      (purpose : Option Purpose)
  /-- PINNED_LOOP with its partner q (R91). -/
  | pinnedLoop (q : Port)
  /-- CLASS_NO_CANDIDATE with the class level saturated at 65535 (R54). -/
  | classNoCandidate (level : Nat)
  /-- A listen completion (R76). -/
  | listenCompletion
  /-- An echo score change from 0 (R108). -/
  | echoFromZero
  /-- An echo score change to 0 (R108). -/
  | echoToZero
  deriving DecidableEq, Repr

/-- A handed request with the port it names; CLASS_NO_CANDIDATE names none (R54). The crossings of one arrival carry one
mark, which no other waiting request has, since they are taken in their order (R43, log entry 3). -/
structure GateReq where
  port : Option Port
  kind : GateReqKind
  arrival : Option Nat
  deriving DecidableEq, Repr

/-- An urgent request handed to the probe scheduler and not yet taken (R60). -/
structure UrgentReq where
  port : Port
  confirm : Bool
  deriving DecidableEq, Repr

/-! ### Taps, probes and the fingerprint table -/

/-- A slot of an analysis FIFO (R23): 96 head bytes, tag removed. -/
structure Slot where
  head : List Byte
  fabricLength : Nat
  ingress : Port
  arrival : MsTime
  deriving DecidableEq, Repr

/-- A probe in a transmit queue, formed in full (R27, R66): its sequence, its egress port, the tagged frame up to
its FCS, and whether its list entry has retired before it (R74). -/
structure TxProbe where
  sequence : Word16
  egress : Port
  frame : List Byte
  entryGone : Bool
  deriving DecidableEq, Repr

/-- What a transmitter is sending: nothing, the head of its queue, or a probe that an engine restart took out of
the queue while it was on the line (R31, log entry 22). -/
inductive Sending where
  | idle
  | head
  | orphan (p : TxProbe)
  deriving DecidableEq, Repr

/-- What the return analyser finds of a frame when it is taken, by the state of that moment (R72, R79 to R84, R86 to R92, R139): no
probe, a malformed candidate, a foreign probe, or an own probe with its egress port, stale, or valid with its verdict
(R86 to R92) and the verdict that takes its place if the egress port is PINNED when the analysis ends (R139). -/
inductive Finding where
  | plain
  | malformed
  | foreign
  | stale (egress : Port)
  | valid (egress : Port) (verdict ifPinned : GateReq)
  deriving DecidableEq, Repr

/-- The working copy of the analysis path: the frame under analysis and what was found of it at its taking (R25). -/
structure Working where
  slot : Slot
  finding : Finding
  deriving DecidableEq, Repr

/-- The state of one tap: link (R17), FIFO (R23), discard counts (R21), transmit queue (R27), and the scheduler's
last served port (R64) and pending serving attempts (R63, log entry 4) for it. -/
structure TapRec where
  linkUp : Bool
  fifo : List Slot
  unmapped : Nat
  nonFlood : Nat
  queue : List TxProbe
  sending : Sending
  lastServed : Port
  attempts : Nat
  deriving DecidableEq, Repr

/-- A tap after power-on reset (R17, R21, R23, R27, R64). -/
def TapRec.reset : TapRec where
  linkUp := false
  fifo := []
  unmapped := 0
  nonFlood := 0
  queue := []
  sending := .idle
  lastServed := 47
  attempts := 0

/-- An entry of the probe list (R71). -/
structure ProbeEntry where
  sequence : Word16
  egress : Port
  emitted : MsTime
  epoch : Word16
  purpose : Purpose
  condition : Condition
  valid : Nat
  stale : Nat
  deriving DecidableEq, Repr

/-- An entry of the fingerprint table (R99). Bit g of `seen` says that guard port g is in ports seen. -/
structure FpEntry where
  tag : BitVec 24
  first : Port
  firstTime : MsTime
  lastTime : MsTime
  hits : Nat
  seen : BitVec 48
  deriving DecidableEq, Repr

/-- The result of a FIND scan (R114), also while it is being gathered (R113). No target is ANY. -/
structure FindResult where
  target : Option Port
  starter : CtlPort
  count : Nat
  first : Option Nat
  copies : List (Nat × FpEntry)
  deriving DecidableEq, Repr

/-- The FIND engine (R112). `next` is the next place the scan visits (R113). -/
inductive FindState where
  | idle
  | scanning (next : Nat) (r : FindResult)
  | done (r : FindResult)
  | aborted (target : Option Port) (starter : CtlPort)
  deriving DecidableEq, Repr

/-! ### Poll lines, incidents, counters, indicators, control ports, store -/

/-- The poll phase of a line (R143). In READ it carries, for fabric ports 0..31 in order, the guard port sampled
(none for an unmapped fabric port) and the code being sent (R145). -/
inductive PollPhase where
  | idle
  | write
  | read (samples : List (Option Port × GateCode))
  deriving DecidableEq, Repr

/-- The state of one poll line: phase (R143), silence timer (ms left, none when stopped) and silent mark (R151),
and the age of its last completion, saturated at 65535 (R153). -/
structure PollRec where
  phase : PollPhase
  silence : Option Nat
  silent : Bool
  age : Nat
  deriving DecidableEq, Repr

/-- A poll line after power-on reset (R152, R153): the silence timer holds the built-in Tsil. -/
def PollRec.reset : PollRec := ⟨.idle, some 250, false, 65535⟩

/-- An incident record (R154). -/
structure Incident where
  number : Word16
  time : MsTime
  cause : Cause
  port : Option Port
  partner : Option Port
  action : IncAction
  state : Option PState
  level : Nat
  penalty : Nat
  hold : Nat
  epoch : Word16
  loopDelay : Option Word16
  purpose : Option Purpose
  deriving DecidableEq, Repr

/-- A record request as the gate controller hands it (R133): the ring adds number and time (R154), and the epoch is
the current one. -/
structure IncidentReq where
  cause : Cause
  port : Option Port
  partner : Option Port
  action : IncAction
  state : Option PState
  level : Nat
  penalty : Nat
  hold : Nat
  loopDelay : Option Word16
  purpose : Option Purpose
  deriving DecidableEq, Repr

/-- A census counter (R164). No filter is ANY. -/
structure Counter where
  kind : CensusKind
  filter : Option Port
  count : Nat
  deriving DecidableEq, Repr

/-- The indicator driver (R166, R167): phase counters of the patterns LISTEN, CUT, SHUT and HELD, the codes being
shifted (guard port 47 first), the codes the indicators show (guard port 0 first; OFF at reset is a DESIGN CHOICE, log
entry 21), and whether a refresh is due. -/
structure LedRec where
  phases : Vector Nat 4
  shifting : Option (List LedCode)
  shown : List LedCode
  due : Bool
  deriving DecidableEq, Repr

/-- A READ_INCIDENTS response under way (R158): the count n asked for, the lost count copied, whether its byte has
been shifted out, the records still to be consumed, the record being shifted out, and whether that record has been
overwritten since its copy was taken (R159). -/
structure IncidentAnswer where
  n : Nat
  copiedLost : Nat
  lowered : Bool
  left : Nat
  current : Option Incident
  gone : Bool
  deriving DecidableEq, Repr

/-- A response whose copies are taken when it begins (R168): of READ_IDENT, READ_STATUS, READ_COUNTER, READ_EVENTS,
READ_FIND and, for the lost count, READ_INCIDENTS with its count n. -/
inductive Reply where
  | ident
  | status
  | counter (i : Fin 4)
  | events
  | find
  | incidents (n : Nat)
  deriving DecidableEq, Repr

/-- What is left to happen in the response of a control port (R158, R163, R168, R68, R8, R171). -/
inductive Answer where
  /-- Nothing: the rest of the response changes no state. -/
  | fixed
  /-- The command has executed and its response has not begun: the copies are still to be taken (R168). -/
  | waiting (r : Reply)
  /-- READ_PORT, with the port whose view has not begun (R8). -/
  | port (p : Port)
  /-- READ_STATUS, with the first deferred port copied, until its byte has been shifted out (R68). -/
  | status (copied : Option Port)
  /-- READ_EVENTS, with the flags captured, until the flags field has been shifted out (R163). -/
  | events (captured : Word16)
  /-- READ_PORTS, with the port of the next view (R8). -/
  | ports (next : Port)
  /-- READ_PROFILE, with the index of the next field (R171). -/
  | profile (next : Nat)
  /-- READ_INCIDENTS (R158). -/
  | incidents (r : IncidentAnswer)
  /-- A READ_INCIDENTS response that the detaching of control port 1 has cut off: nothing more is shifted out (R160). -/
  | abandoned
  deriving DecidableEq, Repr

/-- The response is a READ_INCIDENTS one, begun or not. R160 speaks of a response under way; that a detach abandons one that
has executed and not begun too is a DESIGN CHOICE (log entry 36). -/
def Answer.readsIncidents : Answer → Bool
  | .incidents _ => true
  | .waiting (.incidents _) => true
  | _ => false

/-- More bytes of the response are still to be copied, so that none of value 0 follow those it has (R168). -/
def Answer.unfinished : Answer → Bool
  | .fixed => false
  | .waiting _ => true
  | .port _ => true
  | .status _ => false
  | .events _ => false
  | .ports _ => true
  | .profile _ => true
  | .incidents r => !r.lowered || decide (r.left ≠ 0)
  | .abandoned => false

/-- The state of one control port: transaction (R168), with the status word once it is decided, the response bytes
copied so far, and the bytes that the transaction has shifted out in full as far as a command has said so (log entry 16);
event flags and mask in the layout of R185 (R161, R162), the flags whose event has occurred since the last capture
(R163), and its read cursor and lost count in the incident ring (R155, R157). The cursor is held as the number of held
records that follow it (log entry 7). -/
structure CtlRec where
  phase : TransPhase
  status : Option Status
  response : List Byte
  answer : Answer
  out : List Byte
  flags : Word16
  recurred : Word16
  mask : Word16
  unread : Nat
  lost : Nat
  deriving DecidableEq, Repr

/-- A control port after power-on reset (R155, R161, R162, R168). -/
def CtlRec.reset : CtlRec := ⟨.idle, none, [], .fixed, [], 0, 0, 0xFF80, 0, 0⟩

/-- A save under way (R180): the image formed at its start, the page being written and the ms since its last byte. -/
structure SaveJob where
  image : List Byte
  page : Nat
  waited : Nat
  deriving DecidableEq, Repr

/-- The store status (R177) and the save under way. -/
structure StoreRec where
  condition : StoreCondition
  loadResult : LoadResult
  windowConflict : Bool
  saveResult : SaveResult
  save : Option SaveJob
  deriving DecidableEq, Repr

/-- The store after power-on reset (R177). -/
def StoreRec.reset : StoreRec := ⟨.loading, .none, false, .none, none⟩

/-! ### The state -/

/-- The whole state of the part, and the queue of commands that wait. -/
structure State where
  /-- RESET_N is held low (R178). -/
  resetLow : Bool
  /-- The ms time (00_scope.md, Time). -/
  msTime : MsTime
  /-- The tenth tick of this ms tick has not been taken yet (R118, log entry 2). -/
  tenthDue : Bool
  /-- A ms tick has begun with the expiry of the class interval timer, and its MS_TICK, with the drains and the sweep, is
  still to come (R53, log entry 10). -/
  tickBegun : Bool
  /-- The analysis engine is RUNNING (00_scope.md, Blocks). -/
  running : Bool
  /-- The factory unit number (R177). -/
  unitNumber : BitVec 40
  /-- The profile in force (R177). -/
  profile : Profile
  /-- The store status (R177). -/
  store : StoreRec
  /-- The port table (R1, R2). -/
  ports : Vector PortRec 48
  /-- Tap links A and B. -/
  taps : PerTap TapRec
  /-- The pointer of R25: the FIFO last taken from. -/
  lastTaken : TapId
  /-- The frame that the analysis path holds in its working copy, none while the path is free (R25). -/
  analysing : Option Working
  /-- The class level (R48). -/
  classLevel : Nat
  /-- The class interval timer: ticks left, none when stopped (R53). -/
  classTimer : Option Nat
  /-- The slot timer: ticks left, none when stopped (R57). -/
  slotTimer : Option Nat
  /-- The slot index (R57). -/
  slotIndex : Fin 16
  /-- The last tap served (R65). -/
  lastTapServed : TapId
  /-- The first deferred port (R68). -/
  firstDeferred : Option Port
  /-- The sequence counter (R69). -/
  seqCounter : Word16
  /-- The run number (R70). -/
  runNumber : BitVec 4
  /-- The probe list, the oldest entry at the head (R71). -/
  probes : List ProbeEntry
  /-- Lp as the last tick of this run read it; none before one (R73, log entry 2). -/
  lifeLimit : Option Nat
  /-- Urgent requests handed and not yet taken, oldest first (R60). -/
  urgent : List UrgentReq
  /-- The fingerprint table: the occupied places in rising order, each once (R99, log entry 26). -/
  table : List (Nat × FpEntry)
  /-- The decay timer: ticks left, none when stopped (R107). -/
  decayTimer : Option Nat
  /-- The sweep position (R101). -/
  sweep : Fin 256
  /-- The FIND engine (R112). -/
  find : FindState
  /-- Requests handed to the gate controller and not yet taken, oldest first (R117). -/
  gateReqs : List GateReq
  /-- Gate poll lines A and B (R143). -/
  polls : PerTap PollRec
  /-- The gate epoch (R149). -/
  epoch : Word16
  /-- The held records of the incident ring, oldest first (R155). -/
  ring : List Incident
  /-- The ring's number counter (R154). -/
  nextNumber : Word16
  /-- The census counters (R164). -/
  counters : Vector Counter 4
  /-- The indicator driver (R166). -/
  led : LedRec
  /-- Control ports 0 and 1. -/
  cps : PerCp CtlRec
  /-- The gate hold owner; none is NONE (R174). -/
  holdOwner : Option CtlPort
  /-- The commands that wait, first in, first out (the model's own field). -/
  pending : List Instr
  deriving DecidableEq, Repr

/-- The built-in meter profile 0, and 2 and 3 (R37). -/
def MeterProfile.desk : MeterProfile := ⟨8, 1500, 4000, 12000, 500⟩

/-- The built-in meter profile 1 (R37). -/
def MeterProfile.server : MeterProfile := ⟨32, 6000, 16000, 40000, 2000⟩

/-- The built-in defaults (section 11.1), the identity formed from the unit number (R177). -/
def Profile.defaults (unit : BitVec 40) : Profile where
  chassisNumber := unit.setWidth 32
  chassisAddress := 0x02#8 ++ unit
  groupAddress := 0x075244000001
  probeType := 0xB4D1
  tapTagType := 0xB4D0
  windows := #v[⟨0, 24, 0⟩, ⟨0, 0, 0⟩, ⟨0, 24, 24⟩, ⟨0, 0, 0⟩]
  meters := #v[.desk, .server, .desk, .desk]
  portBytes := Vector.ofFn fun i => ⟨0, ⟨i.val % 16, Nat.mod_lt _ (by decide)⟩, .auto⟩
  dc := 64
  wc := 40000
  cc := 120000
  ti := 100
  ts := 32
  lp := 120
  listenLimit := 2000
  tr := 2000
  tg := 300
  hb := 40
  hmax := 6000
  we := 40
  nr := 4
  ne := 6
  td := 1000
  holdOff := 10
  tsil := 250
  ladder := #v[.cut, .shut, .shut, .shut, .cut, .report, .cut]
  leds := #v[⟨1, 0⟩, ⟨4, 4⟩, ⟨1, 1⟩, ⟨15, 0⟩]
  cp1Attached := true

/-- The part after power-on reset, RESET_N released (R178): `unit` is the factory unit number. -/
def State.powerOn (unit : BitVec 40) : State where
  resetLow := false
  msTime := 0
  tenthDue := false
  tickBegun := false
  running := false
  unitNumber := unit
  profile := Profile.defaults unit
  store := .reset
  ports := Vector.replicate 48 .reset
  taps := ⟨.reset, .reset⟩
  lastTaken := .b
  analysing := none
  classLevel := 0
  classTimer := none
  slotTimer := none
  slotIndex := 0
  lastTapServed := .b
  firstDeferred := none
  seqCounter := 0
  runNumber := 0
  probes := []
  lifeLimit := none
  urgent := []
  table := []
  decayTimer := none
  sweep := 0
  find := .idle
  gateReqs := []
  polls := ⟨.reset, .reset⟩
  epoch := 0
  ring := []
  nextNumber := 0
  counters := #v[⟨.floodFrames, none, 0⟩, ⟨.unanalysed, none, 0⟩, ⟨.returnsValid, none, 0⟩,
    ⟨.gateClosings, none, 0⟩]
  led := ⟨#v[0, 0, 0, 0], none, List.replicate 48 .off, false⟩
  cps := ⟨.reset, .reset⟩
  holdOwner := none
  pending := []

/-- The unit number of the modelled part: the manual's worked example (section 11.4). DESIGN CHOICE, log entry 1. -/
def State.unitNumberAtReset : BitVec 40 := 0x3A00127C45

/-- The machine right after reset: power-on reset values with RESET_N just released (R2, R178, log entry 1). -/
def State.reset : State := State.powerOn State.unitNumberAtReset

/-! ### Outcomes -/

/-- No command of this block faults: every command is an event that happens, a request that is taken, or a control
command that is answered with a status word. The type has no constructor. -/
inductive Fault where
  deriving DecidableEq, Repr

/-- Refusals of the model. -/
inductive Refusal where
  /-- Raised by `exec` alone, for a row that has no meaning yet: none is left. Safe: no state follows it. -/
  | notModelled (mnemonic : String)
  deriving DecidableEq, Repr

/-- The outcome of a command. -/
abbrev Result := Host.Outcome State Fault Refusal

end Sys2Proof.Machine
end

