-- ==== Sys2Proof/Machine/Operands.lean ====
section
/-! DEFINITION. The operand forms: byte order, argument bytes, the profile fields with their widths and clamps,
the port map, and the fields read from a frame. -/

namespace Sys2Proof.Machine

/-! ### Bytes -/

/-- A value as `n` bytes, the most significant first (12_formats.md introduction). -/
def beBytes : Nat → Nat → List Byte
  | 0, _ => []
  | n + 1, v => BitVec.ofNat 8 (v / 256 ^ n) :: beBytes n v

/-- The value of bytes, the most significant first. -/
def beNat (bs : List Byte) : Nat := bs.foldl (fun acc b => acc * 256 + b.toNat) 0

/-- `n` bytes from offset `at`; bytes beyond the end read as 0 (R23). -/
def bytesAt (bs : List Byte) (offset n : Nat) : List Byte :=
  (List.range n).map fun i => bs.getD (offset + i) 0

/-- The 16-bit word at a byte offset. -/
def wordAt (bs : List Byte) (offset : Nat) : Nat := beNat (bytesAt bs offset 2)

/-! ### Serial bits (12_formats.md introduction, R168, R185) -/

/-- The bits of a byte as they stand on a line, the most significant first. -/
def byteBits (b : Byte) : List Bool := (List.range 8).map fun i => b.getLsbD (7 - i)

/-- The byte that eight bits make, the first the most significant (R168). -/
def bitsByte (bits : List Bool) : Byte := BitVec.ofNat 8 (bits.foldl (fun acc b => acc * 2 + b.toNat) 0)

/-- The bytes that have been shifted in: a byte is complete with its eighth bit, and a byte partly shifted in is
discarded with the command (R168, R169). -/
def bytesOfBits : List Bool → List Byte
  | b0 :: b1 :: b2 :: b3 :: b4 :: b5 :: b6 :: b7 :: rest => bitsByte [b0, b1, b2, b3, b4, b5, b6, b7] :: bytesOfBits rest
  | _ => []

/-- Bits sent two for each code, the most significant first, the first code leading (R185). -/
def pairBits (codes : List Nat) : Nat := codes.foldl (fun acc c => acc * 4 + c) 0

/-- The link bits of a write phase as they are received, the bit of fabric port 0 leading: bit f of the result is the link
bit of fabric port f (R185). -/
def writeLinks (received : BitVec 32) : BitVec 32 := received.reverse

/-! ### Argument bytes (R171, R185) -/

/-- A guard port byte: 0..47. -/
def portArg (b : Byte) : Option Port := if h : b.toNat < 48 then some ⟨b.toNat, h⟩ else none

/-- A flag byte: 0 clear, 1 set. -/
def flagArg (b : Byte) : Option Bool := if b = 0 then some false else if b = 1 then some true else none

/-- A FIND target or counter filter byte: 0xFF is ANY (inner none), else a guard port. -/
def anyPortArg (b : Byte) : Option (Option Port) := if b = 0xFF then some none else (portArg b).map some

/-- The census kinds in the order of their codes 0..15 (R165, R185). -/
def censusKinds : List CensusKind :=
  [.floodFrames, .floodUnits, .probesSent, .probesDeferred, .returnsValid, .returnsStale, .foreignProbes,
    .malformedProbe, .echoes, .repeats, .evictions, .unanalysed, .tapErrors, .tagErrors, .gateClosings, .pollErrors]

/-- A census kind byte: 0..15. -/
def kindArg (b : Byte) : Option CensusKind := censusKinds[b.toNat]?

/-- A census counter byte: 0..3. -/
def counterArg (b : Byte) : Option (Fin 4) := if h : b.toNat < 4 then some ⟨b.toNat, h⟩ else none

/-- The count n of READ_INCIDENTS: 1..8. -/
def countArg (b : Byte) : Option Nat := if 1 ≤ b.toNat ∧ b.toNat ≤ 8 then some b.toNat else none

/-! ### Profile fields (R189) -/

/-- A field of a window (R9). -/
inductive WindowPart where
  | first
  | count
  | guard
  deriving DecidableEq, Repr

/-- A field of a meter profile (R37). -/
inductive MeterPart where
  | d
  | w
  | c
  | s
  | r
  deriving DecidableEq, Repr

/-- A profile field, by what it holds (R189). -/
inductive FieldId where
  | chassisNumber
  | chassisAddress
  | groupAddress
  | probeType
  | tapTagType
  | window (i : Fin 4) (part : WindowPart)
  | meter (i : Fin 4) (part : MeterPart)
  | portByte (p : Port)
  | dc
  | wc
  | cc
  | ti
  | ts
  | lp
  | listenLimit
  | tr
  | tg
  | hb
  | hmax
  | we
  | nr
  | ne
  | td
  | holdOff
  | tsil
  | ladder (c : Fin 7)
  | ledOn (i : Fin 4)
  | ledOff (i : Fin 4)
  | cp1Attached
  deriving DecidableEq, Repr

/-- The identity fields, 0..4 (R189). -/
def identityFields : List FieldId := [.chassisNumber, .chassisAddress, .groupAddress, .probeType, .tapTagType]

/-- The three fields of a window (R189). -/
def windowFields (i : Fin 4) : List FieldId := [.window i .first, .window i .count, .window i .guard]

/-- The five fields of a meter profile (R37, R189). -/
def meterFields (i : Fin 4) : List FieldId := [.meter i .d, .meter i .w, .meter i .c, .meter i .s, .meter i .r]

/-- The class and timing fields, 85..101 (R189). -/
def timingFields : List FieldId :=
  [.dc, .wc, .cc, .ti, .ts, .lp, .listenLimit, .tr, .tg, .hb, .hmax, .we, .nr, .ne, .td, .holdOff, .tsil]

/-- The two fields of an indicator pattern (R189). -/
def ledFields (i : Fin 4) : List FieldId := [.ledOn i, .ledOff i]

/-- The 118 fields in image order (R189). -/
def fieldOrder : List FieldId :=
  List.flatten [identityFields, (List.finRange 4).flatMap windowFields, (List.finRange 4).flatMap meterFields,
    (List.finRange 48).map FieldId.portByte, timingFields, (List.finRange 7).map FieldId.ladder,
    (List.finRange 4).flatMap ledFields, [FieldId.cp1Attached]]

/-- The field of an index 0..117. -/
def fieldAt (i : Nat) : Option FieldId := fieldOrder[i]?

/-- The width of a field in the image, in bytes (R189). -/
def FieldId.width : FieldId → Nat
  | .chassisNumber => 4
  | .chassisAddress => 6
  | .groupAddress => 6
  | .probeType => 2
  | .tapTagType => 2
  | .window _ _ => 1
  | .meter _ _ => 2
  | .portByte _ => 1
  | .dc => 2
  | .wc => 4
  | .cc => 4
  | .ti => 2
  | .ts => 2
  | .lp => 2
  | .listenLimit => 2
  | .tr => 2
  | .tg => 2
  | .hb => 2
  | .hmax => 2
  | .we => 2
  | .nr => 1
  | .ne => 1
  | .td => 2
  | .holdOff => 2
  | .tsil => 2
  | .ladder _ => 1
  | .ledOn _ => 1
  | .ledOff _ => 1
  | .cp1Attached => 1

/-- Is this a window field (R13)? -/
def FieldId.isWindow : FieldId → Bool
  | .window _ _ => true
  | _ => false

/-- A value brought into a range (00_scope.md, Parameters). -/
def clamp (lo hi v : Nat) : Nat := max lo (min v hi)

/-- A mode code: 0 AUTO, 1 PINNED, any other HELD (R189). -/
def modeOfCode : Nat → Mode
  | 0 => .auto
  | 1 => .pinned
  | _ => .held

/-- The code of a mode (R185, R186, R189). -/
def Mode.code : Mode → Nat
  | .auto => 0
  | .pinned => 1
  | .held => 2

/-- An action code: 0 IGNORE, 1 REPORT, 2 CUT, any other SHUT (R129, R189). -/
def actionOfCode : Nat → Action
  | 0 => .ignore
  | 1 => .report
  | 2 => .cut
  | _ => .shut

/-- The code of an action in the image (R189). -/
def Action.code : Action → Nat
  | .ignore => 0
  | .report => 1
  | .cut => 2
  | .shut => 3

/-- A per-port byte: meter profile in bits 7..6, slot in bits 5..2, mode in bits 1..0 (R189). -/
def PortByte.ofByte (v : Nat) : PortByte where
  meter := ⟨v / 64 % 4, Nat.mod_lt _ (by decide)⟩
  slot := ⟨v / 4 % 16, Nat.mod_lt _ (by decide)⟩
  mode := modeOfCode (v % 4)

/-- The byte of a per-port byte. -/
def PortByte.toByte (b : PortByte) : Nat := b.meter.val * 64 + b.slot.val * 4 + b.mode.code

/-- A window clamped in the order of R10. -/
def Window.clamped (w : Window) : Window :=
  let first := min w.first 31
  let guard := min w.guard 47
  ⟨first, min (min w.count 32) (min (32 - first) (48 - guard)), guard⟩

/-- A window with one of its three fields replaced, not yet clamped (R14). -/
def Window.withPart (w : Window) (part : WindowPart) (v : Nat) : Window :=
  match part with
  | .first => { w with first := v }
  | .count => { w with count := v }
  | .guard => { w with guard := v }

/-- The guard ranges of two enabled windows share a guard port (R14). -/
def Window.overlaps (x y : Window) : Bool :=
  decide (0 < x.count ∧ 0 < y.count ∧ x.guard < y.guard + y.count ∧ y.guard < x.guard + x.count)

/-- The clamps between the values of one meter profile, in the order of R38. -/
def MeterProfile.clamped (m : MeterProfile) : MeterProfile :=
  let c := max m.c m.w
  ⟨m.d, m.w, c, max m.s c, min m.r m.w⟩

/-- A meter profile with one value written into its range, before the clamps between values (R38). -/
def MeterProfile.withPart (m : MeterProfile) (part : MeterPart) (v : Nat) : MeterProfile :=
  match part with
  | .d => { m with d := clamp 0 4095 v }
  | .w => { m with w := clamp 0 65535 v }
  | .c => { m with c := clamp 0 65535 v }
  | .s => { m with s := clamp 0 65535 v }
  | .r => { m with r := clamp 0 65535 v }

/-- Bit 0 of the first of the six address bytes: the group bit (R189). -/
def groupBit : BitVec 48 := 0x010000000000

/-- A field's value written into the profile, clamped into its own range and no further (R171). Windows keep the
written value until R10 clamps the window as a whole. The attachment of control port 1 is kept as yes or no, so that
READ_PROFILE and SAVE_PROFILE carry 1 after any other value than 0: a DESIGN CHOICE, since R189 codes every such value
as yes and does not say which of them the stored field carries (log entry 34). -/
def Profile.putRaw (pr : Profile) (f : FieldId) (v : Nat) : Profile :=
  match f with
  | .chassisNumber => { pr with chassisNumber := BitVec.ofNat 32 v }
  | .chassisAddress => { pr with chassisAddress := BitVec.ofNat 48 v }
  | .groupAddress => { pr with groupAddress := BitVec.ofNat 48 v ||| groupBit }
  | .probeType => { pr with probeType := BitVec.ofNat 16 v }
  | .tapTagType => { pr with tapTagType := BitVec.ofNat 16 v }
  | .window i part => { pr with windows := pr.windows.set i (pr.windows[i].withPart part v) }
  | .meter i part => { pr with meters := pr.meters.set i (pr.meters[i].withPart part v) }
  | .portByte p => { pr with portBytes := pr.portBytes.set p (PortByte.ofByte v) }
  | .dc => { pr with dc := clamp 0 65535 v }
  | .wc => { pr with wc := clamp 0 1048575 v }
  | .cc => { pr with cc := clamp 0 1048575 v }
  | .ti => { pr with ti := clamp 10 10000 v }
  | .ts => { pr with ts := clamp 4 255 v }
  | .lp => { pr with lp := clamp 10 1000 v }
  | .listenLimit => { pr with listenLimit := clamp 100 10000 v }
  | .tr => { pr with tr := clamp 100 60000 v }
  | .tg => { pr with tg := clamp 10 3600 v }
  | .hb => { pr with hb := clamp 1 600 v }
  | .hmax => { pr with hmax := clamp 1 36000 v }
  | .we => { pr with we := clamp 4 255 v }
  | .nr => { pr with nr := clamp 2 15 v }
  | .ne => { pr with ne := clamp 1 15 v }
  | .td => { pr with td := clamp 100 10000 v }
  | .holdOff => { pr with holdOff := clamp 1 600 v }
  | .tsil => { pr with tsil := clamp 10 2000 v }
  | .ladder c => { pr with ladder := pr.ladder.set c (actionOfCode v) }
  | .ledOn i => { pr with leds := pr.leds.set i { pr.leds[i] with on := clamp 0 15 v } }
  | .ledOff i => { pr with leds := pr.leds.set i { pr.leds[i] with off := clamp 0 15 v } }
  | .cp1Attached => { pr with cp1Attached := decide (v ≠ 0) }

/-- The clamps between fields that follow the write of one field (R171): R38 for the meter profile written, R55
for the class values, R127 for the hold values. Windows are settled by `Profile.windowWritten`. -/
def Profile.settle (pr : Profile) (f : FieldId) : Profile :=
  match f with
  | .meter i _ => { pr with meters := pr.meters.set i pr.meters[i].clamped }
  | .dc => { pr with cc := max pr.cc pr.wc }
  | .wc => { pr with cc := max pr.cc pr.wc }
  | .cc => { pr with cc := max pr.cc pr.wc }
  | .ti => { pr with cc := max pr.cc pr.wc }
  | .hb => { pr with hmax := max pr.hmax pr.hb }
  | .hmax => { pr with hmax := max pr.hmax pr.hb }
  | _ => pr

/-- A field that is not a window field, written with all its clamps (R171). -/
def Profile.write (pr : Profile) (f : FieldId) (v : Nat) : Profile := (pr.putRaw f v).settle f

/-- A window field written: the clamped window, or none where it would overlap another enabled window (R14). -/
def Profile.windowWritten (pr : Profile) (i : Fin 4) (part : WindowPart) (v : Nat) : Option Window :=
  let w := (pr.windows[i].withPart part v).clamped
  if (List.finRange 4).any (fun j => decide (j ≠ i) && w.overlaps pr.windows[j]) then none else some w

/-- The value of a field as READ_PROFILE and SAVE_PROFILE carry it (R189). Control port 1 attached is carried as 0 or 1,
whatever value was written (DESIGN CHOICE, log entry 34). -/
def Profile.value (pr : Profile) : FieldId → Nat
  | .chassisNumber => pr.chassisNumber.toNat
  | .chassisAddress => pr.chassisAddress.toNat
  | .groupAddress => pr.groupAddress.toNat
  | .probeType => pr.probeType.toNat
  | .tapTagType => pr.tapTagType.toNat
  | .window i .first => pr.windows[i].first
  | .window i .count => pr.windows[i].count
  | .window i .guard => pr.windows[i].guard
  | .meter i .d => pr.meters[i].d
  | .meter i .w => pr.meters[i].w
  | .meter i .c => pr.meters[i].c
  | .meter i .s => pr.meters[i].s
  | .meter i .r => pr.meters[i].r
  | .portByte p => pr.portBytes[p].toByte
  | .dc => pr.dc
  | .wc => pr.wc
  | .cc => pr.cc
  | .ti => pr.ti
  | .ts => pr.ts
  | .lp => pr.lp
  | .listenLimit => pr.listenLimit
  | .tr => pr.tr
  | .tg => pr.tg
  | .hb => pr.hb
  | .hmax => pr.hmax
  | .we => pr.we
  | .nr => pr.nr
  | .ne => pr.ne
  | .td => pr.td
  | .holdOff => pr.holdOff
  | .tsil => pr.tsil
  | .ladder c => pr.ladder[c].code
  | .ledOn i => pr.leds[i].on
  | .ledOff i => pr.leds[i].off
  | .cp1Attached => if pr.cp1Attached then 1 else 0

/-- The bytes of a field in its width in the image (R189). -/
def Profile.fieldBytes (pr : Profile) (f : FieldId) : List Byte := beBytes f.width (pr.value f)

/-- The values of consecutive fields taken from bytes, with the bytes left over; none where bytes are missing. -/
def splitValues : List FieldId → List Byte → Option (List (FieldId × Nat))
  | [], _ => some []
  | f :: fs, bs =>
    if bs.length < f.width then none
    else (splitValues fs (bs.drop f.width)).map fun vs => (f, beNat (bs.take f.width)) :: vs

/-- The fields of a run: `count` of them from a starting index (R171). -/
def fieldRun (start count : Nat) : List FieldId := (fieldOrder.drop start).take count

/-! ### The profile image (R189) -/

/-- The sum of the 16-bit words of some bytes. -/
def wordSum : List Byte → Nat
  | x :: y :: rest => x.toNat * 256 + y.toNat + wordSum rest
  | _ => 0

/-- The 256-byte image that a save writes (R180, R189): magic, length, the fields, padding 0 and the check word. -/
def Profile.image (pr : Profile) : List Byte :=
  let body := beBytes 2 0x5244 ++ beBytes 2 256 ++ fieldOrder.flatMap pr.fieldBytes ++ List.replicate 78 0
  body ++ beBytes 2 ((65535 + 65536 - wordSum body % 65536) % 65536)

/-- What the loader makes of the bytes the memory acknowledged, in the order of R178. -/
def judgeImage (acked : List Byte) : LoadResult :=
  if acked.length < 2 then .absent
  else if wordAt acked 0 = 0xFFFF then .blank
  else if acked.length < 256 then .absent
  else if wordAt acked 0 ≠ 0x5244 ∨ wordAt acked 2 ≠ 256 ∨ wordSum (acked.take 256) % 65536 ≠ 65535 then .bad
  else .loaded

/-- The windows taken at load, in order, each clamped and disabled where it conflicts with one taken before it;
the flag says that one was disabled (R15). -/
def takeWindows : List Window → List Window → List Window × Bool
  | taken, [] => (taken, false)
  | taken, w :: ws =>
    let w := w.clamped
    if taken.any w.overlaps then
      ((takeWindows (taken ++ [{ w with count := 0 }]) ws).1, true)
    else takeWindows (taken ++ [w]) ws

/-- The profile a LOADED image gives, and whether a window conflicted (R178, R15, R39, R55, R127). -/
def Profile.load (pr : Profile) (acked : List Byte) : Profile × Bool :=
  let raw := ((splitValues fieldOrder (acked.drop 4)).getD []).foldl (fun p fv => p.putRaw fv.1 fv.2) pr
  let taken := takeWindows [] raw.windows.toList
  ({ raw with
      windows := Vector.ofFn fun i => taken.1.getD i.val ⟨0, 0, 0⟩
      meters := Vector.ofFn fun i => raw.meters[i].clamped
      cc := max raw.cc raw.wc
      hmax := max raw.hmax raw.hb }, taken.2)

/-! ### The port map (section 1.6) -/

/-- The windows of a tap, window 0 first (R9). -/
def Profile.tapWindows (pr : Profile) : TapId → Window × Window
  | .a => (pr.windows[0], pr.windows[1])
  | .b => (pr.windows[2], pr.windows[3])

/-- The guard port a window gives a fabric port in its fabric range (R11). -/
def Window.map (w : Window) (f : FabricPort) : Option Port :=
  if h : w.first ≤ f.val ∧ f.val < w.first + w.count ∧ w.guard + (f.val - w.first) < 48 then
    some ⟨w.guard + (f.val - w.first), h.2.2⟩
  else none

/-- Does an enabled window's fabric range hold the fabric port (R11)? -/
def Window.covers (w : Window) (f : FabricPort) : Bool :=
  decide (w.first ≤ f.val ∧ f.val < w.first + w.count)

/-- The guard port of a fabric port of a tap: window 0 before window 1 (R11). -/
def Profile.mapFabric (pr : Profile) (t : TapId) (f : FabricPort) : Option Port :=
  let ws := pr.tapWindows t
  if ws.1.covers f then ws.1.map f else if ws.2.covers f then ws.2.map f else none

/-- The fabric port that a window would give a guard port of its guard range. -/
def Window.unmap (w : Window) (g : Port) : Option FabricPort :=
  if h : w.guard ≤ g.val ∧ g.val < w.guard + w.count ∧ w.first + (g.val - w.guard) < 32 then
    some ⟨w.first + (g.val - w.guard), h.2.2⟩
  else none

/-- The fabric port of a tap that maps to a guard port, if there is one (R12). -/
def Profile.fabricOf (pr : Profile) (t : TapId) (g : Port) : Option FabricPort :=
  let ws := pr.tapWindows t
  match ws.1.unmap g with
  | some f => some f
  | none =>
    match ws.2.unmap g with
    | some f => if ws.1.covers f then none else some f
    | none => none

/-- The reverse mapping: the pair of tap and fabric port that maps to a guard port (R12). -/
def Profile.reverse (pr : Profile) (g : Port) : Option (TapId × FabricPort) :=
  match pr.fabricOf .a g with
  | some f => some (.a, f)
  | none => (pr.fabricOf .b g).map fun f => (.b, f)

/-- The meter profile a port selects (R37). -/
def Profile.meterOf (pr : Profile) (p : Port) : MeterProfile := pr.meters[(pr.portBytes[p]).meter]

/-! ### Frames -/

/-- The weight of a flood copy in FU (R32). -/
def weight (fabricLength : Nat) : Nat := (clamp 64 1522 fabricLength + 20 + 63) / 64

/-- The 96 head bytes of an accepted frame: the tag removed, zeros beyond the fabric length (R23, R184). Of a frame shorter
than 96 bytes they hold its four FCS bytes as received, so those of one shorter than 64 bytes enter its fingerprint: a
DESIGN CHOICE between two sentences of R97 (log entry 37). -/
def headBytes (f : TapFrame) : List Byte :=
  bytesAt ((f.bytes.take 12 ++ f.bytes.drop 16).take (f.length - 4)) 0 96

/-- The group bit of a destination address (R20, R189). -/
def isGroup (bytes : List Byte) : Bool := (bytes.getD 0 0).getLsbD 0

/-- The tag type of a tap frame (R184). -/
def tagType (bytes : List Byte) : Nat := wordAt bytes 12

/-- The direction bit of a tap frame's tag: set for DIRECTED (R184). -/
def tagDirected (bytes : List Byte) : Bool := (bytes.getD 14 0).getLsbD 7

/-- The fabric port of a tap frame's tag: five bits (R184). -/
def tagPort (bytes : List Byte) : FabricPort :=
  ⟨(bytes.getD 15 0).toNat % 32, Nat.mod_lt _ (by decide)⟩

/-- The payload of a probe, head offsets 14..25, without its check word (R184). -/
def probePayload (chassis : BitVec 32) (run : BitVec 4) (egress : Port) (sequence emit epoch : Word16) : List Byte :=
  beBytes 4 chassis.toNat ++ [BitVec.ofNat 8 (16 + run.toNat), BitVec.ofNat 8 egress.val]
    ++ beBytes 2 sequence.toNat ++ beBytes 2 emit.toNat ++ beBytes 2 epoch.toNat

/-- The check word of a payload: it brings the sum of the seven words to 65535 (R66, R184). -/
def checkWord (payload : List Byte) : Nat := (65535 + 65536 - wordSum payload % 65536) % 65536

/-- A tagged probe as the transmitter sends it, up to its FCS: 64 bytes (R66, R184). -/
def probeFrame (pr : Profile) (f : FabricPort) (payload : List Byte) : List Byte :=
  beBytes 6 pr.groupAddress.toNat ++ beBytes 6 pr.chassisAddress.toNat
    ++ beBytes 2 pr.tapTagType.toNat ++ [0x80, BitVec.ofNat 8 f.val]
    ++ beBytes 2 pr.probeType.toNat ++ payload ++ beBytes 2 (checkWord payload) ++ List.replicate 32 0

/-- All 68 bytes of a probe on the tap: the tagged frame and its tap FCS (R27). -/
def TxProbe.wire (x : TxProbe) : List Byte := x.frame ++ beBytes 4 (Config.tapFcs x.frame).toNat

end Sys2Proof.Machine
end

