-- ==== Sys2Proof/Decode.lean ====
section
/-! DEFINITION. The words that spell commands: the table's words, of which this block has none, and the bytes of a
control transaction (R168, R169, R185). -/

namespace Sys2Proof

/-- The command that a word spells by the table's bits. No row of spec/opcode_table.json has bits, so no word spells
one. -/
def decodeTableWord (_nbits _w : Nat) : Option Instr := none

namespace Machine

/-- The bytes that a run of profile fields takes: each value in its field's width (R171, R185). -/
def runWidth (fields : List FieldId) : Nat := (fields.map FieldId.width).sum

/-- The starting index and count of a WRITE_PROFILE are in range (R171). -/
def runInRange (start count : Byte) : Bool :=
  decide (start.toNat < Config.profileFields ∧ 1 ≤ count.toNat ∧ start.toNat + count.toNat ≤ Config.profileFields)

/-- The fields of a WRITE_PROFILE. -/
def writeFields (start count : Byte) : List FieldId := fieldRun start.toNat count.toNat

/-- The value bytes that a WRITE_PROFILE waits for: none where its run is out of range (log entry 14). -/
def valueBytes (start count : Byte) : Nat := if runInRange start count then runWidth (writeFields start count) else 0

/-- SET_MODE by its mode byte: 1 PINNED, 2 HELD, else the AUTO row (R185, log entry 9). -/
def setModeOf (cp : CtlPort) (port mode : Byte) : Instr :=
  if mode = 1 then .setModePinned cp port
  else if mode = 2 then .setModeHeld cp port
  else .setModeAuto cp port mode

/-- The 22 commands of the command table (R172). -/
inductive CommandName where
  | readIdent
  | readStatus
  | readPort
  | readPorts
  | setMode
  | release
  | releaseAll
  | takeHold
  | dropHold
  | breakHold
  | readIncidents
  | readEvents
  | writeMask
  | selectCounter
  | readCounter
  | readProfile
  | writeProfile
  | saveProfile
  | find
  | readFind
  | restartEngine
  | releaseEngine
  deriving DecidableEq, Repr

/-- The commands in the order of the command table (R172, R185). -/
def commandOrder : List CommandName :=
  [.readIdent, .readStatus, .readPort, .readPorts, .setMode, .release, .releaseAll, .takeHold, .dropHold, .breakHold,
    .readIncidents, .readEvents, .writeMask, .selectCounter, .readCounter, .readProfile, .writeProfile, .saveProfile,
    .find, .readFind, .restartEngine, .releaseEngine]

/-- The command that a command byte names: 0x01 the first, 0x16 the last, every other value none (R185). -/
def commandNamed (b : Byte) : Option CommandName := if b = 0 then none else commandOrder[b.toNat - 1]?

/-- The byte names a command (R169). -/
def namesCommand (b : Byte) : Bool := (commandNamed b).isSome

/-- A named command with the argument bytes shifted in: what has executed, none while arguments are missing (R168). -/
def withArguments (cp : CtlPort) : CommandName → List Byte → Option Instr
  | .readIdent, _ => some (.readIdent (.command cp))
  | .readStatus, _ => some (.readStatus (.command cp))
  | .readPort, p :: _ => some (.readPort cp (.command p))
  | .readPorts, p :: _ => some (.readPorts cp (.command p))
  | .setMode, p :: m :: _ => some (setModeOf cp p m)
  | .release, p :: f :: _ => some (.release cp p f)
  | .releaseAll, f :: _ => some (.releaseAll cp f)
  | .takeHold, _ => some (.takeHold cp)
  | .dropHold, _ => some (.dropHold cp)
  | .breakHold, _ => some (.breakHold cp)
  | .readIncidents, n :: _ => some (.readIncidents cp (.command n))
  | .readEvents, _ => some (.readEvents (.command cp))
  | .writeMask, h :: l :: _ => some (.writeMask cp (h ++ l))
  | .selectCounter, c :: k :: f :: _ => some (.selectCounter cp c k f)
  | .readCounter, c :: _ => some (.readCounter cp (.command c))
  | .readProfile, i :: _ => some (.readProfile cp (.command i))
  | .writeProfile, i :: n :: vs =>
    if valueBytes i n ≤ vs.length then some (.writeProfile cp i n (vs.take (valueBytes i n))) else none
  | .saveProfile, _ => some (.saveProfile cp)
  | .find, t :: _ => some (.find (.command cp t))
  | .readFind, _ => some (.readFind (.command cp))
  | .restartEngine, h :: _ => some (.restartEngine cp h)
  | .releaseEngine, _ => some (.releaseEngine cp)
  | _, _ => none

/-- The command that has executed once the bytes have been shifted in since chip select fell; none while its
argument bytes are not complete. Bytes after execution are ignored (R168, R169, R185). -/
def decodeTransaction (cp : CtlPort) : List Byte → Option Instr
  | [] => none
  | b :: args =>
    match commandNamed b with
    | none => some (.unknownCommand cp b)
    | some c => withArguments cp c args

/-- The control port and the bytes of the transaction that sends a command; none for a command that is no control
command (R185). -/
def encodeTransaction : Instr → Option (CtlPort × List Byte)
  | .readIdent (.command cp) => some (cp, [1])
  | .readStatus (.command cp) => some (cp, [2])
  | .readPort cp (.command p) => some (cp, [3, p])
  | .readPorts cp (.command p) => some (cp, [4, p])
  | .setModeAuto cp p m => some (cp, [5, p, m])
  | .setModePinned cp p => some (cp, [5, p, 1])
  | .setModeHeld cp p => some (cp, [5, p, 2])
  | .release cp p f => some (cp, [6, p, f])
  | .releaseAll cp f => some (cp, [7, f])
  | .takeHold cp => some (cp, [8])
  | .dropHold cp => some (cp, [9])
  | .breakHold cp => some (cp, [10])
  | .readIncidents cp (.command n) => some (cp, [11, n])
  | .readEvents (.command cp) => some (cp, [12])
  | .writeMask cp m => some (cp, [13, m.extractLsb' 8 8, m.extractLsb' 0 8])
  | .selectCounter cp c k f => some (cp, [14, c, k, f])
  | .readCounter cp (.command c) => some (cp, [15, c])
  | .readProfile cp (.command i) => some (cp, [16, i])
  | .writeProfile cp i n vs => some (cp, 17 :: i :: n :: vs)
  | .saveProfile cp => some (cp, [18])
  | .find (.command cp t) => some (cp, [19, t])
  | .readFind (.command cp) => some (cp, [20])
  | .restartEngine cp h => some (cp, [21, h])
  | .releaseEngine cp => some (cp, [22])
  | .unknownCommand cp b => some (cp, [b])
  | _ => none

end Machine

end Sys2Proof
end

