-- ==== Sys2Proof/Machine/Flags.lean ====
section
/-! DEFINITION. The event flags with the attention lines, and the census counters. -/

namespace Sys2Proof.Machine

/-! ### Event flags (section 9.4) -/

/-- The bit of a flag in the two-byte flags field (R185). -/
def EventFlag.bit : EventFlag → Word16
  | .incident => 0x8000
  | .ringLoss => 0x4000
  | .findDone => 0x2000
  | .tapPressure => 0x1000
  | .tapDown => 0x0800
  | .pollSilent => 0x0400
  | .classWarn => 0x0200
  | .holdBroken => 0x0100
  | .storeStatus => 0x0080

/-- The bits of the flags field that carry a flag (R185). -/
def flagBits : Word16 := 0xFF80

/-- An event sets its flag; the event is remembered for a capture under way (R161, R163). -/
def CtlRec.raise (c : CtlRec) (f : EventFlag) : CtlRec :=
  { c with flags := c.flags ||| f.bit, recurred := c.recurred ||| f.bit }

/-- A flag is set on a control port. -/
def CtlRec.has (c : CtlRec) (f : EventFlag) : Bool := decide (c.flags &&& f.bit ≠ 0)

/-- A control port is attached: CP0 always, CP1 by its profile field (R155, R160). -/
def State.attached (s : State) : CtlPort → Bool
  | .cp0 => true
  | .cp1 => s.profile.cp1Attached

/-- A flag set on one control port, attached or not (R161). -/
def State.raiseOn (s : State) (cp : CtlPort) (f : EventFlag) : State :=
  { s with cps := s.cps.set cp ((s.cps.get cp).raise f) }

/-- A flag set on each attached control port (R161). -/
def State.raiseAttached (s : State) (f : EventFlag) : State :=
  { s with cps := ⟨s.cps.cp0.raise f, if s.profile.cp1Attached then s.cps.cp1.raise f else s.cps.cp1⟩ }

/-- The attention line of a control port: asserted while a flag is set with its enable on (R162). -/
def State.attention (s : State) (cp : CtlPort) : Bool :=
  decide ((s.cps.get cp).flags &&& (s.cps.get cp).mask ≠ 0)

/-- The flags left when a flags field has been shifted out: each captured flag is cleared unless its event has
occurred again since (R163). -/
def CtlRec.clearCaptured (c : CtlRec) (captured : Word16) : CtlRec :=
  { c with flags := c.flags &&& ~~~(captured &&& ~~~c.recurred) }

/-! ### Census counters (section 9.5) -/

/-- The kinds whose events carry no port (R165). -/
def CensusKind.portless : CensusKind → Bool
  | .tapErrors => true
  | .tagErrors => true
  | .pollErrors => true
  | _ => false

/-- A counter counts an event of its kind that its filter admits (R165). -/
def Counter.admits (c : Counter) (k : CensusKind) (p : Option Port) : Bool :=
  decide (c.kind = k) && (k.portless || c.filter.isNone || decide (c.filter = p))

/-- A counter after an event: raised by n, saturating (R165). -/
def Counter.hit (c : Counter) (k : CensusKind) (p : Option Port) (n : Nat) : Counter :=
  if c.admits k p then { c with count := min (c.count + n) 4294967295 } else c

/-- An event counted in the census: kind, port (none for a port-less kind) and amount (R165). -/
def State.census (s : State) (k : CensusKind) (p : Option Port) (n : Nat) : State :=
  { s with counters := Vector.ofFn fun i => s.counters[i].hit k p n }

end Sys2Proof.Machine
end

