-- ==== Sys2Proof/Machine/Ops.lean ====
section
/-! DEFINITION. The named operations on the state that the meanings share: port records, requests between blocks,
serving attempts, entry into each port state, incident records, the engine's start and restart, and the frame of a
control transaction. -/

namespace Sys2Proof.Machine

/-! ### Parts of the state -/

/-- The 48 guard ports in ascending order. -/
def allPorts : List Port := List.finRange 48

/-- One port record changed by its owner (R1). -/
def State.updPort (s : State) (p : Port) (f : PortRec → PortRec) : State :=
  { s with ports := s.ports.set p (f s.ports[p]) }

/-- One tap changed. -/
def State.updTap (s : State) (t : TapId) (f : TapRec → TapRec) : State :=
  { s with taps := s.taps.set t (f (s.taps.get t)) }

/-- One poll line changed. -/
def State.updPoll (s : State) (l : TapId) (f : PollRec → PollRec) : State :=
  { s with polls := s.polls.set l (f (s.polls.get l)) }

/-- One control port changed. -/
def State.updCtl (s : State) (cp : CtlPort) (f : CtlRec → CtlRec) : State :=
  { s with cps := s.cps.set cp (f (s.cps.get cp)) }

/-- The other tap. -/
def otherTap : TapId → TapId
  | .a => .b
  | .b => .a

/-- While RESET_N is low every block holds its reset value, so a command has no effect (R178, log entry 31). -/
def powered (s t : State) : Result := .next (if s.resetLow then s else t)

/-- The age of a stamp in ms, modulo 2^32 (00_scope.md, Time). -/
def State.age (s : State) (stamp : MsTime) : Nat := (s.msTime - stamp).toNat

/-! ### Gate codes (section 1.4) -/

/-- OPEN < CUT < SHUT, with the codes of the poll line 0, 1, 2 (R143, R185). -/
def GateCode.rank : GateCode → Nat
  | .opened => 0
  | .cut => 1
  | .shut => 2

/-- The presented code that mode and state give (R5). -/
def PortRec.presented (r : PortRec) : GateCode :=
  match r.mode with
  | .pinned => .opened
  | .held => .shut
  | .auto =>
    match r.state with
    | .down => .cut
    | .listen => .cut
    | .opened => .opened
    | .watch => .opened
    | .cut => .cut
    | .shut => .shut

/-- A closing change is pending: the presented code is more closed than the delivered code (R6). -/
def PortRec.closingPending (r : PortRec) : Bool := decide (r.delivered.rank < r.presented.rank)

/-! ### Requests (R1, R117) -/

/-- The condition of a port whose changes are handed: its link (R7), where its level stands (R41, R42), whether its echo
score is 0 (R108). -/
inductive PortFact where
  | link
  | level
  | score
  deriving DecidableEq, Repr

/-- The condition whose change a request tells; a cause, a verdict and a completion tell none. -/
def GateReqKind.fact : GateReqKind → Option PortFact
  | .linkUp => some .link
  | .linkDown => some .link
  | .watch => some .level
  | .downward => some .level
  | .rise => some .level
  | .echoFromZero => some .score
  | .echoToZero => some .score
  | .cause _ _ _ _ _ => none
  | .pinnedLoop _ => none
  | .classNoCandidate _ => none
  | .listenCompletion => none

/-- An earlier request for the same port has to be taken first: it is a crossing of the same arrival (R43), or an earlier
change of the same condition (DEDUCED, log entry 3). Any two others are taken in either order (R117, R142). -/
def GateReq.before (r q : GateReq) : Bool :=
  decide (r.port = q.port) &&
    ((r.arrival.isSome && decide (r.arrival = q.arrival)) ||
      (r.kind.fact.isSome && decide (r.kind.fact = q.kind.fact)))

/-- The wanted request that has so many wanted ones before it, if it may be taken now, with the requests that stay. -/
def takeTurn (want : GateReq → Bool) : Nat → List GateReq → Option (GateReq × List GateReq)
  | _, [] => none
  | n, r :: rs =>
    if want r && n == 0 then some (r, rs)
    else
      match takeTurn want (if want r then n - 1 else n) rs with
      | none => none
      | some (q, qs) => if r.before q then none else some (q, r :: qs)

/-- A mark that no waiting request has, for the crossings of an arrival (R43, log entry 3). -/
def State.freshArrival (s : State) : Nat :=
  s.gateReqs.foldl (fun n q => max n ((q.arrival.map (· + 1)).getD 0)) 0

/-- A request handed to the gate controller (R117). -/
def State.hand (s : State) (p : Option Port) (k : GateReqKind) : State :=
  { s with gateReqs := s.gateReqs ++ [⟨p, k, none⟩] }

/-- An urgent request handed to the probe scheduler (R60). -/
def State.handUrgent (s : State) (p : Port) (confirm : Bool) : State :=
  { s with urgent := s.urgent ++ [⟨p, confirm⟩] }

/-! ### Eligibility and serving attempts (section 4.3) -/

/-- The states in which an AUTO port accrues, takes urgent requests and is probed (R58, R60, R62). -/
def PState.probed : PState → Bool
  | .listen => true
  | .opened => true
  | .watch => true
  | .cut => true
  | .down => false
  | .shut => false

/-- A port is probe-eligible and its reverse mapping names the tap (R62, R63). -/
def State.eligibleOn (s : State) (t : TapId) (p : Port) : Bool :=
  let r := s.ports[p]
  s.running && decide (r.mode = .auto) && r.state.probed && r.linkUp &&
    match s.profile.reverse p with
    | none => false
    | some (t', _) => decide (t' = t) && (s.taps.get t').linkUp

/-- A port that may be served for a tap: eligible with backlog 1 or more (R62). -/
def State.servable (s : State) (t : TapId) (p : Port) : Bool :=
  s.eligibleOn t p && decide (1 ≤ s.ports[p].backlog)

/-- Serving attempts become pending for a tap (R63, log entry 4). -/
def State.addAttempts (s : State) (t : TapId) (n : Nat) : State :=
  s.updTap t fun x => { x with attempts := x.attempts + n }

/-- The attempts that a change makes for a tap: one for each eligible port whose backlog rose, and one if a port
became eligible with backlog 1 or more (R63, log entry 4). -/
def newAttempts (before after : State) (t : TapId) : Nat :=
  (allPorts.filter fun p => before.eligibleOn t p && after.eligibleOn t p &&
      decide (before.ports[p].backlog < after.ports[p].backlog)).length
    + if allPorts.any fun p => after.servable t p && !before.eligibleOn t p then 1 else 0

/-- A change of port records or links with the serving attempts it makes (R63). -/
def noteAttempts (before after : State) : State :=
  (after.addAttempts .a (newAttempts before after .a)).addAttempts .b (newAttempts before after .b)

/-- A freed list entry is a serving attempt for each tap (R63, R73). -/
def State.entryFreed (s : State) : State := (s.addAttempts .a 1).addAttempts .b 1

/-! ### The incident ring (section 9.2) -/

/-- A copy being shifted out whose record is overwritten will move nothing (R159). -/
def Answer.overwritten : Answer → Answer
  | .incidents r => .incidents { r with gone := r.gone || r.current.isSome }
  | a => a

/-- An attached control port when the ring takes a request (R156, R157): `oldestLost` says that its next unread
record is overwritten. -/
def CtlRec.afterRecord (c : CtlRec) (oldestLost : Bool) : CtlRec :=
  if oldestLost then
    ({ c with lost := min (c.lost + 1) 255, answer := c.answer.overwritten }.raise .ringLoss).raise .incident
  else { c with unread := c.unread + 1 }.raise .incident

/-- The record the ring makes of a request (R154). -/
def State.incidentOf (s : State) (r : IncidentReq) : Incident where
  number := s.nextNumber
  time := s.msTime
  cause := r.cause
  port := r.port
  partner := r.partner
  action := r.action
  state := r.state
  level := r.level
  penalty := r.penalty
  hold := r.hold
  epoch := s.epoch
  loopDelay := r.loopDelay
  purpose := r.purpose

/-- The ring takes a record request, overwriting the oldest held record if 32 are held (R154, R156, R157). -/
def State.record (s : State) (r : IncidentReq) : State :=
  let full := decide (Config.ringRecords ≤ s.ring.length)
  let lost (c : CtlRec) : Bool := full && decide (c.unread = s.ring.length)
  { s with
    ring := (if full then s.ring.tail else s.ring) ++ [s.incidentOf r]
    nextNumber := s.nextNumber + 1
    cps := ⟨s.cps.cp0.afterRecord (lost s.cps.cp0),
      if s.profile.cp1Attached then s.cps.cp1.afterRecord (lost s.cps.cp1) else s.cps.cp1⟩ }

/-- The unread count of the attached port that stands furthest back (R155). -/
def State.furthest (s : State) : Nat :=
  max s.cps.cp0.unread (if s.profile.cp1Attached then s.cps.cp1.unread else 0)

/-- Records that every attached cursor has passed are freed (R155). -/
def State.freeRead (s : State) : State :=
  { s with ring := s.ring.drop (s.ring.length - s.furthest) }

/-- The report hold-off admits a record for the port now (R134). -/
def State.reportDue (s : State) (p : Port) : Bool :=
  match s.ports[p].lastReport with
  | none => true
  | some stamp => decide (s.profile.holdOff * 1000 ≤ s.age stamp)

/-- A decision recorded under the report hold-off of a port (R134). -/
def State.report (s : State) (p : Port) (r : IncidentReq) : State :=
  if s.reportDue p then (s.updPort p fun x => { x with lastReport := some s.msTime }).record r else s

/-! ### Entry into each port state (sections 7.2, 7.3, 7.5) -/

/-- Entry into LISTEN (R119, R125). -/
def PortRec.toListen (r : PortRec) : PortRec :=
  { r with
    state := .listen, listenTimer := .started, releaseTimer := .stopped, goodTimer := .stopped, hold := 0
    listenProbe := none, backlog := 3 }

/-- Entry into DOWN of an AUTO port (R120, R59, R61). -/
def PortRec.toDown (r : PortRec) : PortRec :=
  { r with
    state := .down, listenTimer := .stopped, releaseTimer := .stopped, goodTimer := .stopped, hold := 0
    listenProbe := none, backlog := 3, confirm := false }

/-- Entry into OPEN (R121, R123): the backlog is kept. -/
def PortRec.toOpen (r : PortRec) : PortRec :=
  { r with
    state := .opened, listenTimer := .stopped, releaseTimer := .stopped, goodTimer := .started, listenProbe := none }

/-- Entry into WATCH with the flood meters' urgent request (R123, R44). -/
def PortRec.toWatch (r : PortRec) : PortRec :=
  { r with state := .watch, goodTimer := .stopped, backlog := 3 }

/-- The release condition: level below R and echo score 0 (R125). -/
def PortRec.releasable (r : PortRec) : Bool := r.calm && decide (r.echoScore = 0)

/-- Entry into CUT by a cause (R131). -/
def PortRec.toCut (r : PortRec) : PortRec :=
  { r with
    state := .cut, listenTimer := .stopped, goodTimer := .stopped, listenProbe := none
    releaseTimer := if r.releasable then .started else .stopped }

/-- The hold that a penalty earns (R127). -/
def holdFor (hb hmax penalty : Nat) : Nat := min (hb * 2 ^ (penalty - 1)) hmax

/-- Entry into SHUT by a cause (R127, R131). -/
def PortRec.toShut (r : PortRec) (hb hmax : Nat) : PortRec :=
  { r with
    state := .shut, listenTimer := .stopped, releaseTimer := .stopped, goodTimer := .stopped, listenProbe := none
    penalty := min (r.penalty + 1) 7, hold := holdFor hb hmax (min (r.penalty + 1) 7)
    backlog := 0, confirm := false }

/-- The change to mode HELD (R138). -/
def PortRec.toHeld (r : PortRec) : PortRec :=
  { r with
    mode := .held, state := .shut, hold := 0, listenTimer := .stopped, releaseTimer := .stopped
    goodTimer := .stopped, listenProbe := none, backlog := 0, confirm := false }

/-- The change to mode PINNED (R139). -/
def PortRec.toPinned (r : PortRec) : PortRec :=
  { r with
    mode := .pinned, state := if r.linkUp then .opened else .down, hold := 0, listenTimer := .stopped
    releaseTimer := .stopped, goodTimer := if r.linkUp then .started else .stopped
    listenProbe := none, backlog := 0, confirm := false }

/-- A port enters LISTEN: its record, its urgent request, and any listen completion of an earlier stay in LISTEN
is void (R125, R121; DEDUCED, log entry 17). -/
def State.listen (s : State) (p : Port) : State :=
  { (s.updPort p PortRec.toListen).handUrgent p false with
    gateReqs := s.gateReqs.filter fun r => decide (¬(r.port = some p ∧ r.kind = .listenCompletion)) }

/-- A port enters LISTEN or DOWN by its link field, in mode AUTO (R136, R140). -/
def State.listenOrDown (s : State) (p : Port) : State :=
  let s := s.updPort p fun r => { r with mode := .auto, confirm := false }
  if s.ports[p].linkUp then s.listen p else s.updPort p PortRec.toDown

/-! ### The engine (R179, R181) -/

/-- A port record when the engine becomes RUNNING (R179). -/
def PortRec.run (r : PortRec) : PortRec :=
  match r.mode with
  | .auto => if r.linkUp then r.toListen else r.toDown
  | .pinned =>
    if r.linkUp then { r with state := .opened, goodTimer := .started, backlog := 0 }
    else { r with state := .down, goodTimer := .stopped, backlog := 0 }
  | .held => { r with state := .shut, hold := 0, backlog := 0 }

/-- The engine becomes RUNNING (R179, R57, R107): AUTO ports with link UP enter LISTEN, with an urgent request. -/
def State.becomeRunning (s : State) : State :=
  noteAttempts s
    { s with
      running := true
      ports := Vector.ofFn fun i => s.ports[i].run
      urgent := s.urgent ++
        (allPorts.filter fun p => decide (s.ports[p].mode = .auto) && s.ports[p].linkUp).map (⟨·, false⟩)
      slotTimer := some s.profile.ts
      decayTimer := some s.profile.td }

/-- A port record after an engine restart (R2, R141). -/
def PortRec.restart (r : PortRec) : PortRec :=
  { r with
    state := match r.mode with
      | .auto => .down
      | .pinned => if r.linkUp then .opened else .down
      | .held => .shut
    level := 0, calm := true
    backlog := match r.mode with
      | .auto => 3
      | .pinned => 0
      | .held => 0
    confirm := false, listenProbe := none, echoScore := 0, penalty := 0, hold := 0
    listenTimer := .stopped, releaseTimer := .stopped, goodTimer := .stopped }

/-- A tap after an engine restart: FIFO and queue empty, a probe on the line sent to its end (R26, R31, R77). -/
def TapRec.restart (x : TapRec) : TapRec :=
  { x with
    fifo := [], queue := [], lastServed := 47, attempts := 0
    sending := match x.sending, x.queue with
      | .head, q :: _ => .orphan q
      | .head, [] => .idle
      | other, _ => other }

/-- FIND_DONE is set on the starting control port of a scan that a restart aborts (R116). -/
def State.abortFind (s : State) : State :=
  match s.find with
  | .scanning _ r => { s with find := .aborted r.target r.starter }.raiseOn r.starter .findDone
  | _ => s

/-- The engine restart as one change, leaving the engine HELD (R181, R26, R77, R116, R141, R149, R174). The frame under
analysis is abandoned. That the urgent requests handed to the probe scheduler and not yet taken are discarded is a
DESIGN CHOICE: R141 discards the requests to the gate controller, and R77 says nothing of these (log entry 32). -/
def State.restart (s : State) : State :=
  { s.abortFind with
    running := false
    ports := Vector.ofFn fun i => s.ports[i].restart
    taps := ⟨s.taps.a.restart, s.taps.b.restart⟩
    lastTaken := .b
    analysing := none
    classLevel := 0
    classTimer := none
    slotTimer := none
    slotIndex := 0
    lastTapServed := .b
    firstDeferred := none
    runNumber := s.runNumber + 1
    probes := []
    lifeLimit := none
    urgent := []
    table := []
    decayTimer := none
    sweep := 0
    gateReqs := []
    epoch := 0
    holdOwner := none }

/-! ### Control transactions (section 10) -/

/-- The status and the response of the command that has executed (R168). -/
def State.answer (s : State) (cp : CtlPort) (st : Status) (bytes : List Byte) (a : Answer) : State :=
  s.updCtl cp fun c => { c with phase := .answering, status := some st, response := bytes, answer := a }

/-- A command has executed whose status is decided when its response begins: READ_FIND alone (R170). -/
def State.await (s : State) (cp : CtlPort) (a : Answer) : State :=
  s.updCtl cp fun c => { c with phase := .answering, status := none, response := [], answer := a }

/-- The response of a control port has executed and not begun, and waits for its copies (R168). -/
def State.waits (s : State) (cp : CtlPort) (r : Reply) : Bool := decide ((s.cps.get cp).answer = .waiting r)

/-- More response bytes are copied, to be shifted out. -/
def State.respond (s : State) (cp : CtlPort) (bytes : List Byte) (a : Answer) : State :=
  s.updCtl cp fun c => { c with response := c.response ++ bytes, answer := a }

/-- The status of the first check that fails (R170). -/
def firstFailure : List (Bool × Status) → Option Status
  | [] => none
  | (failed, st) :: rest => if failed then some st else firstFailure rest

/-- A command executes on a control port that is RECEIVING: the checks in order, then the command (R168, R170).
With chip select high or a command already executed the bits are ignored (R168). -/
def command (cp : CtlPort) (s : State) (checks : List (Bool × Status)) (run : State) : Result :=
  powered s <|
    if (s.cps.get cp).phase = .receiving then
      match firstFailure checks with
      | some st => s.answer cp st [] .fixed
      | none => run
    else s

/-- The command comes from control port 1 (R172). -/
def fromCp1 : CtlPort → Bool
  | .cp0 => false
  | .cp1 => true

/-- The gate hold belongs to the other control port (R175). -/
def State.heldByOther (s : State) (cp : CtlPort) : Bool :=
  match s.holdOwner with
  | none => false
  | some x => decide (x ≠ cp)

/-- The conditions under which WRITE_PROFILE and SAVE_PROFILE find the store busy (R173). -/
def State.storeBusy (s : State) : Bool := decide (s.store.condition ≠ .ready)

/-- The profile store is LOADING (R173). -/
def State.loading (s : State) : Bool := decide (s.store.condition = .loading)

end Sys2Proof.Machine
end

