-- ==== Sys2Proof/Machine/Echo.lean ====
section
/-! DEFINITION. The echo unit: fingerprints, the fingerprint table, echo and repeat evidence, scores and the FIND
engine's scan (06_echo_detection_and_the_fingerprint_table.md). -/

namespace Sys2Proof.Machine

/-! ### Fingerprints (R97, R98) -/

/-- One step of the fingerprint register (R97). -/
def fpBit (reg : BitVec 32) (bit : Bool) : BitVec 32 :=
  if reg.getLsbD 0 = bit then reg >>> 1 else (reg >>> 1) ^^^ 0xEDB88320

/-- The eight bits of a byte, the least significant first (R97). -/
def fpByte (reg : BitVec 32) (b : Byte) : BitVec 32 :=
  (List.range 8).foldl (fun r i => fpBit r (b.getLsbD i)) reg

/-- The fingerprint of a frame from its first 60 head bytes, whatever they are (R97, log entry 37). -/
def fingerprint (head : List Byte) : BitVec 32 := ~~~((bytesAt head 0 60).foldl fpByte 0xFFFFFFFF)

/-- The set index: the least significant 8 bits (R98). -/
def fpSet (fp : BitVec 32) : Nat := fp.toNat % 256

/-- The tag: the most significant 24 bits (R98). -/
def fpTag (fp : BitVec 32) : BitVec 24 := fp.extractLsb' 8 24

/-! ### The table (R99 to R101) -/

/-- The entry at a place, none where the place is free. -/
def placeGet : List (Nat × FpEntry) → Nat → Option FpEntry
  | [], _ => none
  | (k, e) :: rest, place => if k = place then some e else placeGet rest place

/-- An entry put at a place, replacing what stood there, the places kept in rising order. -/
def placePut : List (Nat × FpEntry) → Nat → FpEntry → List (Nat × FpEntry)
  | [], place, e => [(place, e)]
  | (k, x) :: rest, place, e =>
    if place < k then (place, e) :: (k, x) :: rest
    else if place = k then (place, e) :: rest
    else (k, x) :: placePut rest place e

/-- The canonical form of the table: places strictly rising and within the table. -/
def tableWf : List (Nat × FpEntry) → Bool
  | [] => true
  | [(k, _)] => decide (k < Config.tablePlaces)
  | (k, _) :: (k', e') :: rest => decide (k < k') && tableWf ((k', e') :: rest)

/-- The set of a guard port alone, in the layout of R188. -/
def seenBit (p : Port) : BitVec 48 := 1#48 <<< p.val

/-- The entry has seen a guard port. -/
def FpEntry.hasSeen (e : FpEntry) (p : Port) : Bool := e.seen.getLsbD p.val

/-- The number of guard ports in ports seen. -/
def FpEntry.seenCount (e : FpEntry) : Nat := (allPorts.filter e.hasSeen).length

/-- An entry is live: its age is less than We, both as they stand (R100). -/
def State.live (s : State) (e : FpEntry) : Bool := decide (s.age e.firstTime < s.profile.we)

/-- The sweep visits one set: its entries that are not live are freed, the position advances (R101). -/
def State.sweepVisit (s : State) : State :=
  { s with
    table := s.table.filter fun x => decide (x.1 / 4 ≠ s.sweep.val) || s.live x.2
    sweep := s.sweep + 1 }

/-- Every entry that is not live now is freed: at a write of We, judged with We before the write (R100). -/
def State.freeStaleEntries (s : State) : State := { s with table := s.table.filter fun x => s.live x.2 }

/-! ### Entering a frame (section 6.3) -/

/-- The places of a set, way 0 first (R99). -/
def setPlaces (set : Nat) : List Nat := [set * 4, set * 4 + 1, set * 4 + 2, set * 4 + 3]

/-- The live entry of a set with a tag, with its place (R102). -/
def State.liveMatch (s : State) (set : Nat) (tag : BitVec 24) : Option (Nat × FpEntry) :=
  (setPlaces set).findSome? fun place =>
    match placeGet s.table place with
    | none => none
    | some e => if s.live e && decide (e.tag = tag) then some (place, e) else none

/-- The place is free or holds an entry that is not live (R102). -/
def State.placeOpen (s : State) (place : Nat) : Bool :=
  match placeGet s.table place with
  | none => true
  | some e => !s.live e

/-- The age of the entry at a place. -/
def State.placeAge (s : State) (place : Nat) : Nat :=
  match placeGet s.table place with
  | none => 0
  | some e => s.age e.firstTime

/-- The place whose entry has the greatest age, the lowest-numbered way among equals (R102). -/
def State.oldestPlace (s : State) (set : Nat) : Nat :=
  (setPlaces set).foldl (fun best place => if s.placeAge best < s.placeAge place then place else best) (set * 4)

/-- The place a new entry takes, and whether it evicts a live entry (R102). -/
def State.newPlace (s : State) (set : Nat) : Nat × Bool :=
  match (setPlaces set).find? s.placeOpen with
  | some place => (place, false)
  | none => (s.oldestPlace set, true)

/-- The later of two times: their difference modulo 2^32 is less than 2^31 (R103). -/
def laterTime (last arrival : MsTime) : MsTime := if (arrival - last).toNat < 2 ^ 31 then arrival else last

/-- An entry after a match by a frame of a port (R103, R104). -/
def FpEntry.matched (e : FpEntry) (q : Port) (arrival : MsTime) : FpEntry :=
  { e with lastTime := laterTime e.lastTime arrival, hits := min (e.hits + 1) 15, seen := e.seen ||| seenBit q }

/-- A step up of a port's score with what it hands: the change from 0, the urgent request with the confirm mark,
and ECHO at a crossing of the echo limit; a PINNED port is skipped (R103, R106, R108, R109). -/
def State.evidence (s : State) (p : Port) (partner : Option Port) : State :=
  if s.ports[p].mode = .pinned then s
  else
    let old := s.ports[p].echoScore
    let new := min (old + 1) 15
    let up := s.updPort p fun r => { r with echoScore := new }
    let told := if old = 0 then up.hand (some p) .echoFromZero else up
    let asked := told.handUrgent p true
    if old < s.profile.ne ∧ s.profile.ne ≤ new then
      asked.hand (some p) (.cause .echo partner none none none)
    else asked

/-- Echo evidence between the entry's first port and q (R103). -/
def State.echoEvidence (s : State) (first q : Port) : State :=
  ((s.evidence first (some q)).evidence q (some first)).census .echoes (some q) 1

/-- Repeat evidence on q (R104). -/
def State.repeatEvidence (s : State) (q : Port) : State := (s.evidence q none).census .repeats (some q) 1

/-- A frame handed to the echo unit is entered (R96, R102 to R104). Repeat evidence is judged at the increment alone, by the
Nr that then stands: where a WRITE_PROFILE has raised Nr during the life of an entry, an increment to the new Nr gives it
again. That is a DESIGN CHOICE, since R104 also has an entry give at most one repeat evidence in its life (log entry
35). -/
def State.echoEnter (s : State) (x : Slot) : State :=
  let fp := fingerprint x.head
  let q := x.ingress
  match s.liveMatch (fpSet fp) (fpTag fp) with
  | some (place, e) =>
    let put := { s with table := placePut s.table place (e.matched q x.arrival) }
    if e.hasSeen q then
      if e.hits < 15 ∧ e.hits + 1 = s.profile.nr then put.repeatEvidence q else put
    else put.echoEvidence e.first q
  | none =>
    let place := s.newPlace (fpSet fp)
    let put := { s with
      table := placePut s.table place.1 ⟨fpTag fp, q, x.arrival, x.arrival, 1, seenBit q⟩ }
    if place.2 then put.census .evictions (some q) 1 else put

/-! ### Decay (R107, R108) -/

/-- DECAY_EXPIRY (R107): every score above 0 falls by 1; changes to 0 are handed (R108). -/
def execDecayExpiry (s : State) : Result :=
  powered s <|
    if s.running ∧ s.decayTimer = some 0 then
      { s with
        decayTimer := some s.profile.td
        ports := Vector.ofFn fun i => { s.ports[i] with echoScore := s.ports[i].echoScore - 1 }
        gateReqs := s.gateReqs ++
          (allPorts.filter fun p => decide (s.ports[p].echoScore = 1)).map fun p => ⟨some p, .echoToZero, none⟩ }
    else s

/-! ### The FIND scan (R113) -/

/-- An entry matches the target: it is live and names the port, or for ANY it has seen two ports or more (R113). -/
def State.findMatches (s : State) (target : Option Port) (e : FpEntry) : Bool :=
  s.live e &&
    match target with
    | some p => e.hasSeen p
    | none => decide (2 ≤ e.seenCount)

/-- A matching entry taken into the result (R114). -/
def FindResult.take (r : FindResult) (place : Nat) (e : FpEntry) : FindResult :=
  { r with
    count := r.count + 1
    first := if r.first = none then some place else r.first
    copies := if r.copies.length < 8 then r.copies ++ [(place, e)] else r.copies }

/-- The scan visits the places from `next` to `upTo`, less 1 (R113). -/
def State.scan (s : State) (next upTo : Nat) (r : FindResult) : FindResult :=
  (s.table.filter fun x => decide (next ≤ x.1 ∧ x.1 < upTo) && s.findMatches r.target x.2).foldl
    (fun r x => r.take x.1 x.2) r

end Sys2Proof.Machine
end

