-- ==== Sys2Proof/Machine/Analysis.lean ====
section
/-! DEFINITION. The analysis path and the return analyser (section 2.4, 05_probe_returns_and_loop_verdicts.md). -/

namespace Sys2Proof.Machine

/-! ### Recognition (section 5.1) -/

/-- What a frame is to the return analyser (R79 to R81). -/
inductive FrameKind where
  | plain
  | malformed
  | foreign
  | own (egress : Port)
  deriving DecidableEq, Repr

/-- The chassis number field of a probe (R184). -/
def headChassis (head : List Byte) : Nat := beNat (bytesAt head 14 4)

/-- The version field: bits 7..4 of offset 18 (R184). -/
def headVersion (head : List Byte) : Nat := (head.getD 18 0).toNat / 16

/-- The run number field: bits 3..0 of offset 18 (R184). -/
def headRun (head : List Byte) : BitVec 4 := (head.getD 18 0).setWidth 4

/-- The sequence field (R184). -/
def headSequence (head : List Byte) : Word16 := BitVec.ofNat 16 (wordAt head 20)

/-- The emit time field (R184). -/
def headEmit (head : List Byte) : Word16 := BitVec.ofNat 16 (wordAt head 22)

/-- The epoch field (R184). -/
def headEpoch (head : List Byte) : Word16 := BitVec.ofNat 16 (wordAt head 24)

/-- A probe candidate: the probe group address and the probe type of the profile (R79). -/
def isCandidate (pr : Profile) (head : List Byte) : Bool :=
  decide (beNat (bytesAt head 0 6) = pr.groupAddress.toNat) && decide (wordAt head 12 = pr.probeType.toNat)

/-- What a frame is, by its head bytes and the profile (R79, R80, R81). -/
def frameKind (pr : Profile) (head : List Byte) : FrameKind :=
  if !isCandidate pr head then .plain
  else if wordSum (bytesAt head 14 14) % 65536 ≠ 65535 ∨ headVersion head ≠ 1 then .malformed
  else if headChassis head ≠ pr.chassisNumber.toNat then .foreign
  else
    match portArg (head.getD 19 0) with
    | none => .malformed
    | some p => .own p

/-! ### Staleness and verdicts (sections 5.3 to 5.5) -/

/-- The four staleness tests of an own probe with egress p and ingress q (R83). -/
def State.staleReturn (s : State) (head : List Byte) (p q : Port) : Bool :=
  decide (headRun head ≠ s.runNumber) || decide (headEpoch head ≠ s.epoch) ||
    s.ports[p].closingPending || s.ports[q].closingPending || decide (s.ports[p].state = .down)

/-- The entry concerned: sequence and egress port equal, run number current (R72). -/
def State.entryConcerned (s : State) (head : List Byte) (p : Port) : Option ProbeEntry :=
  if headRun head = s.runNumber then
    s.probes.find? fun e => decide (e.sequence = headSequence head ∧ e.egress = p)
  else none

/-- An entry after one more return (R72): valid or stale. -/
def ProbeEntry.returned (e : ProbeEntry) (stale : Bool) : ProbeEntry :=
  if stale then { e with stale := min (e.stale + 1) 255 } else { e with valid := min (e.valid + 1) 255 }

/-- The return counted in the entry concerned, if there is one (R72). -/
def State.countReturn (s : State) (head : List Byte) (p : Port) (stale : Bool) : State :=
  match s.entryConcerned head p with
  | none => s
  | some x => { s with probes := s.probes.map fun e => if e = x then e.returned stale else e }

/-- The loop delay of an own probe (R88). -/
def State.loopDelay (s : State) (head : List Byte) : Word16 := s.msTime.setWidth 16 - headEmit head

/-- The age of a port's last link-up time, none while it is absent (R90). -/
def State.linkAge (s : State) (p : Port) : Option Nat := (s.ports[p].lastLinkUp).map s.age

/-- The port of the higher index (R90). -/
def higherPort (p q : Port) : Port := if p.val < q.val then q else p

/-- The port with the later last link-up time; an absent time is the latest, equal times go to the higher index
(R90, steps 3 and 4). -/
def State.newerPort (s : State) (p q : Port) : Port :=
  match s.linkAge p, s.linkAge q with
  | none, none => higherPort p q
  | none, some _ => p
  | some _, none => q
  | some x, some y => if x < y then p else if y < x then q else higherPort p q

/-- The port that LOOP is raised against where the egress port is PINNED: the ingress port q, or none when q is PINNED too
(R90, steps 1 and 2). -/
def State.besidePinned (s : State) (q : Port) : Option Port := if s.ports[q].mode = .pinned then none else some q

/-- The port that LOOP is raised against, none when both are PINNED (R90). -/
def State.choosePort (s : State) (p q : Port) : Option Port :=
  if s.ports[p].mode = .pinned then s.besidePinned q
  else if s.ports[q].mode = .pinned then some p
  else some (s.newerPort p q)

/-- The verdict of a valid return of egress p and ingress q, for the port chosen (R86, R89 to R91). -/
def verdictOf (p q : Port) (delay : Word16) (purpose : Option Purpose) (chosen : Option Port) : GateReq :=
  if p = q then ⟨some p, .cause .selfLoop none none (some delay) purpose, none⟩
  else
    match chosen with
    | none => ⟨some p, .pinnedLoop q, none⟩
    | some x => ⟨some x, .cause .loop (some (if x = p then q else p)) none (some delay) purpose, none⟩

/-- An own probe is judged against the ports as they stand at its taking (R72, R83, R84, R86, R88, R90, R92). Beside the
verdict stands the one with the egress port PINNED and the ingress port as it is now, for R139. -/
def State.judge (s : State) (x : Slot) (p : Port) : Finding :=
  let q := x.ingress
  let verdict := verdictOf p q (s.loopDelay x.head) ((s.entryConcerned x.head p).map (·.purpose))
  if s.staleReturn x.head p q then .stale p
  else .valid p (verdict (s.choosePort p q)) (verdict (s.besidePinned q))

/-- What the return analyser finds of a frame at its taking (R79 to R81, R84, R94). -/
def State.finding (s : State) (x : Slot) : Finding :=
  match frameKind s.profile x.head with
  | .plain => .plain
  | .malformed => .malformed
  | .foreign => .foreign
  | .own p => s.judge x p

/-- The entry concerned of an own probe counts its return at the taking: a retirement that follows sees the count (R72,
R76, log entry 8). -/
def State.noteReturn (s : State) (w : Working) : State :=
  match w.finding with
  | .plain => s
  | .malformed => s
  | .foreign => s
  | .stale p => s.countReturn w.slot.head p true
  | .valid p _ _ => s.countReturn w.slot.head p false

/-- The analysis path holds a frame in its working copy, tested (R25, R84). -/
def State.hold (s : State) (x : Slot) : State :=
  let w : Working := ⟨x, s.finding x⟩
  { s.noteReturn w with analysing := some w }

/-- A foreign probe on its ingress port (R82). -/
def State.foreignProbe (s : State) (q : Port) : State :=
  let counted := s.census .foreignProbes (some q) 1
  if s.ports[q].mode = .pinned then counted
  else counted.hand (some q) (.cause .foreign none none none none)

/-- The request that a valid return hands when its analysis ends: the verdict of its taking, or, where its egress port has
been made PINNED since, the verdict against the new mode (R92, R139, log entry 8). -/
def State.issued (s : State) (p : Port) (verdict ifPinned : GateReq) : GateReq :=
  if s.ports[p].mode = .pinned then ifPinned else verdict

/-- The analysis of a frame ends: its census counts are made, then its verdict or its cause is handed, or the echo unit
enters it (R80, R82, R85, R86, R95, R96, R139). -/
def State.conclude (s : State) (w : Working) : State :=
  match w.finding with
  | .plain => s.echoEnter w.slot
  | .malformed => (s.census .malformedProbe (some w.slot.ingress) 1).echoEnter w.slot
  | .foreign => s.foreignProbe w.slot.ingress
  | .stale p => s.census .returnsStale (some p) 1
  | .valid p verdict ifPinned =>
    let r := s.issued p verdict ifPinned
    (s.census .returnsValid (some p) 1).hand r.port r.kind

/-- The FIFO the analysis path takes from next (R25). -/
def State.nextFifo (s : State) : Option TapId :=
  match s.taps.a.fifo, s.taps.b.fifo with
  | [], [] => none
  | _ :: _, [] => some .a
  | [], _ :: _ => some .b
  | _ :: _, _ :: _ => some (otherTap s.lastTaken)

/-- The free analysis path takes the head frame of the FIFO whose turn it is, which frees its slot (R25). -/
def State.takeFrame (s : State) : State :=
  match s.nextFifo with
  | none => s
  | some t =>
    match s.running, (s.taps.get t).fifo with
    | true, x :: rest => { s.updTap t fun y => { y with fifo := rest } with lastTaken := t }.hold x
    | _, _ => s

/-- ANALYSIS_TAKE: the free path takes a frame, or the analysis of the frame that it holds ends and the path is free again
(R25, log entry 8). -/
def execAnalysisTake (s : State) : Result :=
  powered s <|
    match s.analysing with
    | none => s.takeFrame
    | some w => { s with analysing := none }.conclude w

end Sys2Proof.Machine
end

