-- ==== Sys2Proof/Machine/Formats.lean ====
section
/-! DEFINITION. The byte layouts of what the control ports shift out (12_formats.md). -/

namespace Sys2Proof.Machine

/-- One byte. -/
def byte (v : Nat) : Byte := BitVec.ofNat 8 v

/-- A flag as a byte. -/
def flagByte (b : Bool) : Byte := if b then 1 else 0

/-- A guard port, 0xFF when absent, empty or ANY (R183, R185). -/
def portByte : Option Port → Byte
  | none => 0xFF
  | some p => byte p.val

/-- The code of a status word (R185). -/
def Status.code : Status → Byte
  | .ok => 0
  | .pending => 1
  | .busy => 2
  | .denied => 3
  | .held => 4
  | .badArg => 5
  | .unknown => 6
  | .overlap => 7

/-- The code of a port state (R186). -/
def PState.code : PState → Nat
  | .down => 0
  | .listen => 1
  | .opened => 2
  | .watch => 3
  | .cut => 4
  | .shut => 5

/-- The code of a cause, in the order of the cause list (R186). -/
def Cause.code : Cause → Nat
  | .ladder .stormCut => 0
  | .ladder .stormShut => 1
  | .ladder .loop => 2
  | .ladder .selfLoop => 3
  | .ladder .echo => 4
  | .ladder .foreign => 5
  | .ladder .classStorm => 6
  | .listenTimeout => 7
  | .pinnedLoop => 8
  | .classNoCandidate => 9
  | .manual => 10

/-- The code of a record's action (R186). -/
def IncAction.code : IncAction → Nat
  | .report => 1
  | .cut => 2
  | .shut => 3
  | .release => 4
  | .releaseAll => 5
  | .setHeld => 6
  | .setPinned => 7
  | .setAuto => 8

/-- The code of a probe purpose, 0xFF when absent (R186, R183). -/
def purposeByte : Option Purpose → Byte
  | none => 0xFF
  | some .routine => 0
  | some .listen => 1
  | some .confirm => 2

/-- The 21 bytes of an incident record (R186). -/
def Incident.bytes (x : Incident) : List Byte :=
  beBytes 2 x.number.toNat ++ beBytes 4 x.time.toNat
    ++ [byte x.cause.code, portByte x.port, portByte x.partner, byte x.action.code,
      (match x.state with
        | none => 0xFF
        | some st => byte st.code)]
    ++ beBytes 2 x.level ++ [byte x.penalty] ++ beBytes 2 x.hold ++ beBytes 2 x.epoch.toNat
    ++ beBytes 2 (match x.loopDelay with
      | none => 0
      | some d => d.toNat)
    ++ [purposeByte x.purpose]

/-- The 16 bytes of a port view (R8, R186). Bits 3..0 of byte 1, of which R186 says nothing, are sent as 0: a DESIGN CHOICE
(log entry 38). -/
def State.portView (s : State) (p : Port) : List Byte :=
  let r := s.ports[p]
  let b := s.profile.portBytes[p]
  [byte p.val,
    byte ((if (s.profile.reverse p).isSome then 128 else 0) + (if r.linkUp then 64 else 0)
      + (if r.lastCause.isSome then 32 else 0) + (if r.lastLinkUp.isSome then 16 else 0)),
    byte (r.mode.code * 16 + r.state.code), byte (r.presented.rank * 16 + r.delivered.rank)]
    ++ beBytes 2 r.level
    ++ [byte (b.meter.val * 16 + b.slot.val), byte (r.backlog * 16 + r.penalty), byte r.echoScore]
    ++ beBytes 2 r.hold
    ++ [(match r.lastCause with
      | none => 0
      | some c => byte c.code)]
    ++ beBytes 4 (match r.lastLinkUp with
      | none => 0
      | some t => s.age t)

/-- The code of the store condition (R187). -/
def StoreCondition.code : StoreCondition → Byte
  | .loading => 0
  | .ready => 1
  | .saving => 2

/-- The code of the load result (R187). -/
def LoadResult.code : LoadResult → Byte
  | .none => 0
  | .absent => 1
  | .blank => 2
  | .bad => 3
  | .loaded => 4

/-- The code of the save result (R187). -/
def SaveResult.code : SaveResult → Byte
  | .none => 0
  | .saved => 1
  | .failed => 2

/-- The ten bytes of READ_IDENT (R187). -/
def State.identBytes (s : State) : List Byte :=
  beBytes 5 s.unitNumber.toNat
    ++ [byte s.runNumber.toNat, s.store.condition.code, s.store.loadResult.code, flagByte s.store.windowConflict,
      s.store.saveResult.code]

/-- The seven bytes of a tap state (R21, R187). -/
def TapRec.bytes (x : TapRec) : List Byte :=
  [flagByte x.linkUp, byte x.fifo.length, byte x.queue.length] ++ beBytes 2 x.unmapped ++ beBytes 2 x.nonFlood

/-- The code of a poll phase (R187). -/
def PollPhase.code : PollPhase → Byte
  | .idle => 0
  | .write => 1
  | .read _ => 2

/-- The four bytes of a poll state (R153, R187). -/
def PollRec.bytes (x : PollRec) : List Byte := [x.phase.code, flagByte x.silent] ++ beBytes 2 x.age

/-- The code of the FIND state (R187). -/
def FindState.code : FindState → Byte
  | .idle => 0
  | .scanning _ _ => 1
  | .done _ => 2
  | .aborted _ _ => 3

/-- The code of the gate hold owner (R187). -/
def ownerByte : Option CtlPort → Byte
  | none => 0
  | some .cp0 => 1
  | some .cp1 => 2

/-- The 37 bytes of READ_STATUS (R187). -/
def State.statusBytes (s : State) : List Byte :=
  [flagByte s.running] ++ beBytes 2 s.epoch.toNat
    ++ [portByte s.firstDeferred, byte s.probes.length, byte s.slotIndex.val] ++ beBytes 2 s.seqCounter.toNat
    ++ [byte s.runNumber.toNat] ++ s.taps.a.bytes ++ s.taps.b.bytes ++ s.polls.a.bytes ++ s.polls.b.bytes
    ++ beBytes 3 s.classLevel ++ [flagByte s.classTimer.isSome, s.find.code, ownerByte s.holdOwner]

/-- The code of a census kind: its place in the table of R165 (R185). -/
def CensusKind.code : CensusKind → Nat
  | .floodFrames => 0
  | .floodUnits => 1
  | .probesSent => 2
  | .probesDeferred => 3
  | .returnsValid => 4
  | .returnsStale => 5
  | .foreignProbes => 6
  | .malformedProbe => 7
  | .echoes => 8
  | .repeats => 9
  | .evictions => 10
  | .unanalysed => 11
  | .tapErrors => 12
  | .tagErrors => 13
  | .gateClosings => 14
  | .pollErrors => 15

/-- The six bytes of READ_COUNTER (R187). -/
def Counter.bytes (c : Counter) : List Byte := [byte c.kind.code, portByte c.filter] ++ beBytes 4 c.count

/-- The 21 bytes of a copy in a FIND result (R188). -/
def copyBytes (x : Nat × FpEntry) : List Byte :=
  beBytes 2 x.1 ++ beBytes 3 x.2.tag.toNat ++ [byte x.2.first.val] ++ beBytes 4 x.2.firstTime.toNat
    ++ beBytes 4 x.2.lastTime.toNat ++ [byte x.2.hits] ++ beBytes 6 x.2.seen.toNat

/-- The starting control port in a FIND head (R188). -/
def starterByte : CtlPort → Byte
  | .cp0 => 0
  | .cp1 => 1

/-- A place index, 0xFFFF when absent (R183, R188). -/
def placeBytes : Option Nat → List Byte
  | none => [0xFF, 0xFF]
  | some p => beBytes 2 p

/-- What a control port puts on its data output from the execution of a command on, as far as it is decided: the
turnaround byte, the status byte once the status is decided, and the response bytes copied (R168, R185). -/
def CtlRec.wire (c : CtlRec) : List Byte :=
  0x00 :: (match c.status with
    | none => []
    | some st => st.code :: c.response)

/-- The first bytes that a control port shifts out: those of the transaction, and bytes of value 0 after its last (R168). -/
def CtlRec.sent (c : CtlRec) (shifted : Nat) : List Byte :=
  if c.answer.unfinished then c.wire.take shifted
  else (c.wire ++ List.replicate (shifted - c.wire.length) 0).take shifted

/-- What a transaction has shifted out in full at its rise: the bytes that the rise counts, or those that had gone out when
its response was abandoned (R160, R168, R169). -/
def CtlRec.final (c : CtlRec) (shifted : Nat) : List Byte := if c.answer = .abandoned then c.out else c.sent shifted

/-- How many bytes of a READ_INCIDENTS transaction must have been shifted out in full by the moments taken: the turnaround
byte when the response begins, the lost count at its lowering, the record count when a record begins, a record when it is
consumed (R158, R168). -/
def CtlRec.knownOut (c : CtlRec) : Nat :=
  match c.answer with
  | .incidents r =>
    if !r.lowered then 1
    else
      match r.current with
      | some x => c.wire.length - x.bytes.length
      | none => if c.response.length ≤ 2 then 3 else c.wire.length
  | _ => 0

/-- A READ_INCIDENTS response abandoned at once: what has gone out stays, and nothing more is shifted out (R160, log
entry 16). -/
def CtlRec.abandon (c : CtlRec) : CtlRec :=
  { c with status := none, response := [], answer := .abandoned, out := c.sent (max c.out.length c.knownOut) }

/-- The status and response bytes of READ_FIND (R115, R188). -/
def FindState.answer : FindState → Status × List Byte
  | .idle => (.ok, [0, 0xFF, 0xFF, 0, 0, 0xFF, 0xFF, 0])
  | .scanning _ _ => (.pending, [])
  | .done r =>
    (.ok, [2, portByte r.target, starterByte r.starter] ++ beBytes 2 r.count ++ placeBytes r.first
      ++ [byte r.copies.length] ++ r.copies.flatMap copyBytes)
  | .aborted target starter => (.ok, [3, portByte target, starterByte starter, 0, 0, 0xFF, 0xFF, 0])

end Sys2Proof.Machine
end

