-- ==== Sys2Proof/WellFormed.lean ====
section
/-! DEFINITION. Which commands are well formed: the operands that an event or a transaction can carry. -/

namespace Sys2Proof.Machine

/-- A tap frame holds its first 100 bytes, or all of a shorter one (R23). -/
def TapFrame.wf (f : TapFrame) : Bool := decide (f.bytes.length = min f.length 100)

/-- A command is well formed. -/
def Instr.wf : Instr → Bool
  -- the loader reads at most the 256 bytes of the image (R178)
  | .loadEnd acked => decide (acked.length ≤ 256)
  | .tapFrame _ f _ => TapFrame.wf f
  -- a byte that names a command is that command's row (R169)
  | .unknownCommand _ b => !namesCommand b
  -- mode bytes 1 and 2 are the rows SET_MODE_PINNED and SET_MODE_HELD (log entry 9)
  | .setModeAuto _ _ mode => decide (mode ≠ 1 ∧ mode ≠ 2)
  -- the command executes once its value bytes are complete (R168, R171)
  | .writeProfile _ start count values => decide (values.length = valueBytes start count)
  -- a scan visits places 0..1023 (R113)
  | .find (.scanTo place) => decide (place ≤ Config.tablePlaces)
  | _ => true

end Sys2Proof.Machine
end

