-- ==== Sys2Proof/Machine/Control.lean ====
section
/-! DEFINITION. The control ports: transactions, reads, the gate hold, incidents and events as read, counters, FIND
and the engine commands (10_control_ports.md, sections 9.3 to 9.5, 6.5, 11.4). -/

namespace Sys2Proof.Machine

/-! ### Transactions (section 10.1) -/

/-- CHIP_SELECT_FALL: a transaction begins (R168). -/
def execChipSelectFall (cp : CtlPort) (s : State) : Result :=
  powered s <|
    if (s.cps.get cp).phase = .idle then
      s.updCtl cp fun c => { c with phase := .receiving, status := none, response := [], answer := .fixed, out := [] }
    else s

/-- A transaction ends: what has been shifted out in full stands, and what the response had left to do is abandoned (R168,
R169, log entry 16). -/
def CtlRec.close (c : CtlRec) (out : List Byte) : CtlRec :=
  { c with phase := .idle, status := none, response := [], answer := .fixed, out := out }

/-- CHIP_SELECT_RISE: the transaction ends, a command that has not executed discarded with nothing given (R168, R169). -/
def execChipSelectRise (ev : RiseEvent) (s : State) : Result :=
  powered s <|
    match (s.cps.get ev.cp).phase with
    | .idle => s
    | .receiving => s.updCtl ev.cp (·.close [])
    | .answering => s.updCtl ev.cp fun c => c.close (c.final ev.shifted)

/-- UNKNOWN_COMMAND (R169, R170). -/
def execUnknownCommand (cp : CtlPort) (b : Byte) (s : State) : Result :=
  command cp s [(!namesCommand b, .unknown)] s

/-! ### Reads (section 10.3) -/

/-- The response of a command that has executed and not begun to answer begins, with its copies (R168). -/
def whenBegins (cp : CtlPort) (s : State) (r : Reply) (begun : State) : Result :=
  powered s (if s.waits cp r then begun else s)

/-- READ_IDENT: the command, or the beginning of its response, with its copies (R168, R172, R187). -/
def execReadIdent (ev : ReadEvent) (s : State) : Result :=
  match ev with
  | .command cp => command cp s [] (s.answer cp .ok [] (.waiting .ident))
  | .begins cp => whenBegins cp s .ident (s.respond cp s.identBytes .fixed)

/-- READ_STATUS: the command, or the beginning of its response, with its copies (R56, R78, R168, R187). -/
def execReadStatus (ev : ReadEvent) (s : State) : Result :=
  match ev with
  | .command cp => command cp s [] (s.answer cp .ok [] (.waiting .status))
  | .begins cp => whenBegins cp s .status (s.respond cp s.statusBytes (.status s.firstDeferred))

/-- DEFERRED_PORT_EMPTIED: the field is emptied if it still holds the copied value (R68). -/
def execDeferredPortEmptied (cp : CtlPort) (s : State) : Result :=
  powered s <|
    match (s.cps.get cp).answer with
    | .status copied =>
      { s.updCtl cp fun c => { c with answer := .fixed } with
        firstDeferred := if s.firstDeferred = copied then none else s.firstDeferred }
    | _ => s

/-- READ_PORT: the command, or the beginning of its view, with its copy (R8). -/
def execReadPort (cp : CtlPort) (ev : ViewEvent) (s : State) : Result :=
  match ev with
  | .command port =>
    command cp s [((portArg port).isNone, .badArg)] <|
      match portArg port with
      | some p => s.answer cp .ok [] (.port p)
      | none => s
  | .viewBegins =>
    powered s <|
      match (s.cps.get cp).answer with
      | .port p => s.respond cp (s.portView p) .fixed
      | _ => s

/-- READ_PORTS: the command, or the beginning of a view, with its copy, 47 going to 0 (R8). -/
def execReadPorts (cp : CtlPort) (ev : ViewEvent) (s : State) : Result :=
  match ev with
  | .command start =>
    command cp s [((portArg start).isNone, .badArg)] <|
      match portArg start with
      | some p => s.answer cp .ok [] (.ports p)
      | none => s
  | .viewBegins =>
    powered s <|
      match (s.cps.get cp).answer with
      | .ports p => s.respond cp (s.portView p) (.ports (p + 1))
      | _ => s

/-! ### The gate hold (section 10.5) -/

/-- TAKE_HOLD (R175). -/
def execTakeHold (cp : CtlPort) (s : State) : Result :=
  command cp s [(s.heldByOther cp, .held)] ({ s with holdOwner := some cp }.answer cp .ok [] .fixed)

/-- DROP_HOLD (R175). -/
def execDropHold (cp : CtlPort) (s : State) : Result :=
  command cp s [] <|
    { s with holdOwner := if s.holdOwner = some cp then none else s.holdOwner }.answer cp .ok [] .fixed

/-- BREAK_HOLD (R176). -/
def execBreakHold (cp : CtlPort) (s : State) : Result :=
  command cp s [(fromCp1 cp, .denied)] <|
    let told := if s.holdOwner = some .cp1 then s.raiseOn .cp1 .holdBroken else s
    { told with holdOwner := none }.answer cp .ok [] .fixed

/-! ### Incidents (section 9.3) -/

/-- The unread record that follows a port's cursor (R158). -/
def State.nextUnread (s : State) (cp : CtlPort) : Option Incident :=
  (s.ring.drop (s.ring.length - (s.cps.get cp).unread)).head?

/-- The first byte of the next record begins: the record is copied (R158, R159). -/
def State.beginRecord (s : State) (cp : CtlPort) (r : IncidentAnswer) : State :=
  if r.lowered ∧ 0 < r.left ∧ r.current = none then
    match s.nextUnread cp with
    | none => s
    | some x => s.respond cp x.bytes (.incidents { r with current := some x, gone := false })
  else s

/-- READ_INCIDENTS: the command, the beginning of its response, with the lost count copied, the beginning of a record, or
the progress of the shifting (R158, R160, R168, log entry 16). -/
def execReadIncidents (cp : CtlPort) (ev : IncidentsEvent) (s : State) : Result :=
  match ev with
  | .command n =>
    command cp s [(!s.attached cp, .denied), ((countArg n).isNone, .badArg)] <|
      s.answer cp .ok [] (.waiting (.incidents n.toNat))
  | .begins =>
    powered s <|
      match (s.cps.get cp).answer with
      | .waiting (.incidents n) =>
        let lost := (s.cps.get cp).lost
        s.respond cp [byte lost] (.incidents ⟨n, lost, false, 0, none, false⟩)
      | _ => s
  | .recordBegins =>
    powered s <|
      match (s.cps.get cp).answer with
      | .incidents r => s.beginRecord cp r
      | _ => s
  | .shiftedOut bytes =>
    powered s <|
      if (s.cps.get cp).answer.readsIncidents then
        s.updCtl cp fun c => { c with out := c.sent (max c.out.length bytes) }
      else s

/-- LOST_COUNT_LOWERED: the lost count falls by the value copied, and the record count is taken (R158). A loss that finds
the count at 255 does not raise it (R157), so losses between a copy of 255 and its lowering are lost with it: a DESIGN
CHOICE, since R158 lets such losses stay counted (log entry 33). -/
def execLostCountLowered (cp : CtlPort) (s : State) : Result :=
  powered s <|
    match (s.cps.get cp).answer with
    | .incidents r =>
      if r.lowered then s
      else
        let m := min r.n (s.cps.get cp).unread
        (s.updCtl cp fun c => { c with lost := c.lost - r.copiedLost }).respond cp [byte m]
          (.incidents { r with lowered := true, left := m })
    | _ => s

/-- The last byte of the record being shifted out: the cursor moves onto it unless it was overwritten (R158, R159). -/
def State.consume (s : State) (cp : CtlPort) : State :=
  match (s.cps.get cp).answer with
  | .incidents r =>
    if r.current = none then s
    else
      (s.updCtl cp fun c =>
        { c with
          unread := if r.gone then c.unread else c.unread - 1
          answer := .incidents { r with left := r.left - 1, current := none, gone := false } }).freeRead
  | _ => s

/-- INCIDENT_CONSUMED (R158); a record whose beginning was not sent as a command begins here. -/
def execIncidentConsumed (cp : CtlPort) (s : State) : Result :=
  powered s <|
    match (s.cps.get cp).answer with
    | .incidents r => (s.beginRecord cp r).consume cp
    | _ => s

/-! ### Events and counters (sections 9.4, 9.5) -/

/-- READ_EVENTS: the command, or the beginning of its response, with the flags captured (R163, R168). -/
def execReadEvents (ev : ReadEvent) (s : State) : Result :=
  match ev with
  | .command cp => command cp s [] (s.answer cp .ok [] (.waiting .events))
  | .begins cp =>
    whenBegins cp s .events <|
      let captured := (s.cps.get cp).flags
      (s.updCtl cp fun c => { c with recurred := 0 }).respond cp (beBytes 2 captured.toNat) (.events captured)

/-- EVENT_FLAGS_CLEARED (R163). -/
def execEventFlagsCleared (cp : CtlPort) (s : State) : Result :=
  powered s <|
    match (s.cps.get cp).answer with
    | .events captured => s.updCtl cp fun c => { c.clearCaptured captured with answer := .fixed }
    | _ => s

/-- WRITE_MASK: bits that carry no flag are ignored (R162, R185). -/
def execWriteMask (cp : CtlPort) (mask : Word16) (s : State) : Result :=
  command cp s [] ((s.updCtl cp fun c => { c with mask := mask &&& flagBits }).answer cp .ok [] .fixed)

/-- SELECT_COUNTER (R164). -/
def execSelectCounter (cp : CtlPort) (counter kind filter : Byte) (s : State) : Result :=
  command cp s [((counterArg counter).isNone || (kindArg kind).isNone || (anyPortArg filter).isNone, .badArg)] <|
    match counterArg counter, kindArg kind, anyPortArg filter with
    | some i, some k, some f => { s with counters := s.counters.set i ⟨k, f, 0⟩ }.answer cp .ok [] .fixed
    | _, _, _ => s

/-- READ_COUNTER: the command, or the beginning of its response, with its copies (R164, R168). -/
def execReadCounter (cp : CtlPort) (ev : CounterEvent) (s : State) : Result :=
  match ev with
  | .command counter =>
    command cp s [((counterArg counter).isNone, .badArg)] <|
      match counterArg counter with
      | some i => s.answer cp .ok [] (.waiting (.counter i))
      | none => s
  | .begins =>
    powered s <|
      match (s.cps.get cp).answer with
      | .waiting (.counter i) => s.respond cp s.counters[i].bytes .fixed
      | _ => s

/-! ### FIND (section 6.5) -/

/-- The FIND engine is SCANNING (R112). -/
def State.scanning (s : State) : Bool :=
  match s.find with
  | .scanning _ _ => true
  | .idle => false
  | .done _ => false
  | .aborted _ _ => false

/-- FIND: the command starts a scan, or the scan reaches a place (R112, R113). -/
def execFind (ev : FindEvent) (s : State) : Result :=
  match ev with
  | .command cp target =>
    command cp s [((anyPortArg target).isNone, .badArg), (s.scanning, .busy)] <|
      match anyPortArg target with
      | some x => { s with find := .scanning 0 ⟨x, cp, 0, none, []⟩ }.answer cp .ok [] .fixed
      | none => s
  | .scanTo place =>
    powered s <|
      match s.find with
      | .scanning next r => { s with find := .scanning (max next place) (s.scan next place r) }
      | _ => s

/-- FIND_COMPLETE: the rest of the table is visited, the result is held, FIND_DONE is set (R114). -/
def execFindComplete (s : State) : Result :=
  powered s <|
    match s.find with
    | .scanning next r =>
      { s with find := .done (s.scan next Config.tablePlaces r) }.raiseOn r.starter .findDone
    | _ => s

/-- READ_FIND: the command, or the beginning of its response, which decides between OK and PENDING (R115, R170, R188). -/
def execReadFind (ev : ReadEvent) (s : State) : Result :=
  match ev with
  | .command cp => command cp s [] (s.await cp (.waiting .find))
  | .begins cp => whenBegins cp s .find (s.answer cp s.find.answer.1 s.find.answer.2 .fixed)

/-! ### Engine restart and release (section 11.4) -/

/-- The engine restarted, and RUNNING again at once without the hold flag (R181). -/
def State.restartEngine (s : State) (hold : Bool) : State := if hold then s.restart else s.restart.becomeRunning

/-- RESTART_ENGINE (R181). -/
def execRestartEngine (cp : CtlPort) (hold : Byte) (s : State) : Result :=
  command cp s [(fromCp1 cp, .denied), ((flagArg hold).isNone, .badArg), (s.loading, .busy)] <|
    match flagArg hold with
    | some h => (s.restartEngine h).answer cp .ok [] .fixed
    | none => s

/-- RELEASE_ENGINE (R182). -/
def execReleaseEngine (cp : CtlPort) (s : State) : Result :=
  command cp s [(fromCp1 cp, .denied), (s.loading, .busy)] <|
    (if s.running then s else s.becomeRunning).answer cp .ok [] .fixed

end Sys2Proof.Machine
end

