-- ==== Sys2Proof/Machine/Gate.lean ====
section
/-! DEFINITION. The gate controller: the requests it takes, the action ladder, its timers' expiries and the manual
changes (07_gate_control.md). -/

namespace Sys2Proof.Machine

/-- The gate controller takes the wanted request of a turn, the oldest being 0, while the engine is RUNNING (R117, R142). -/
def State.takeRequest (s : State) (want : GateReq → Bool) (turn : Nat) (act : State → GateReqKind → State) : State :=
  if s.running then
    match takeTurn want turn s.gateReqs with
    | none => s
    | some (r, rest) => act { s with gateReqs := rest } r.kind
  else s

/-- The wanted request is exactly this one. -/
def exactly (p : Port) (k : GateReqKind) (r : GateReq) : Bool := decide (r.port = some p ∧ r.kind = k)

/-! ### Link changes (R119, R120) -/

/-- A link change to UP taken for a port (R119; log entry 23 for PINNED). -/
def State.takeLinkUp (s : State) (p : Port) : State :=
  match s.ports[p].mode with
  | .auto => if s.ports[p].state = .down then noteAttempts s (s.listen p) else s
  | .pinned => s.updPort p fun r => { r with state := .opened, goodTimer := .started }
  | .held => s

/-- A link change to DOWN taken for a port (R120). -/
def State.takeLinkDown (s : State) (p : Port) : State :=
  match s.ports[p].mode with
  | .auto => if s.ports[p].state = .down then s else s.updPort p PortRec.toDown
  | .pinned => s.updPort p fun r => { r with state := .down, goodTimer := .stopped }
  | .held => s

/-- LINK_UP (R119). -/
def execLinkUp (p : Port) (s : State) : Result :=
  powered s (s.takeRequest (exactly p .linkUp) 0 fun s _ => s.takeLinkUp p)

/-- LINK_DOWN (R120). -/
def execLinkDown (p : Port) (s : State) : Result :=
  powered s (s.takeRequest (exactly p .linkDown) 0 fun s _ => s.takeLinkDown p)

/-! ### Crossings and score changes (R123, R125) -/

/-- A WATCH crossing taken for a port (R44, R123). -/
def State.takeWatch (s : State) (p : Port) : State :=
  if s.ports[p].mode = .auto ∧ s.ports[p].state = .opened then noteAttempts s (s.updPort p PortRec.toWatch) else s

/-- The release timer of a port in CUT starts once both release conditions hold (R125, log entry 24). -/
def PortRec.startRelease (r : PortRec) : PortRec :=
  if r.mode = .auto ∧ r.state = .cut ∧ r.releasable ∧ r.releaseTimer.running = false then
    { r with releaseTimer := .started }
  else r

/-- The release timer of a port in CUT stops and reads 0 (R125). -/
def PortRec.stopRelease (r : PortRec) : PortRec :=
  if r.mode = .auto ∧ r.state = .cut then { r with releaseTimer := .stopped } else r

/-- A port record after a downward crossing of R is taken (R46, R123, R125). -/
def PortRec.calmed (r : PortRec) : PortRec :=
  if r.mode = .auto ∧ r.state = .watch then r.toOpen else r.startRelease

/-- WATCH_CROSSING (R44, R123). -/
def execWatchCrossing (p : Port) (s : State) : Result :=
  powered s (s.takeRequest (exactly p .watch) 0 fun s _ => s.takeWatch p)

/-- DOWNWARD_CROSSING (R46). -/
def execDownwardCrossing (p : Port) (s : State) : Result :=
  powered s (s.takeRequest (exactly p .downward) 0 fun s _ => s.updPort p PortRec.calmed)

/-- RISE_THROUGH_R (R46). -/
def execRiseThroughR (p : Port) (s : State) : Result :=
  powered s (s.takeRequest (exactly p .rise) 0 fun s _ => s.updPort p PortRec.stopRelease)

/-- The wanted request is an echo score change of the port (R108). -/
def echoChange (p : Port) (r : GateReq) : Bool := exactly p .echoFromZero r || exactly p .echoToZero r

/-- ECHO_SCORE_CHANGE (R108, R125). -/
def execEchoScoreChange (p : Port) (s : State) : Result :=
  powered s <| s.takeRequest (echoChange p) 0 fun s k =>
    s.updPort p (if k = .echoToZero then PortRec.startRelease else PortRec.stopRelease)

/-! ### Causes (section 7.3) -/

/-- The place of a cause in the ladder (R129). -/
def ladderIndex : LadderCause → Fin 7
  | .stormCut => 0
  | .stormShut => 1
  | .loop => 2
  | .selfLoop => 3
  | .echo => 4
  | .foreign => 5
  | .classStorm => 6

/-- The action that the ladder gives a cause (R129). -/
def Profile.action (pr : Profile) (c : LadderCause) : Action := pr.ladder[ladderIndex c]

/-- A state from which an action CUT enters CUT (R130). -/
def PState.cuttable : PState → Bool
  | .listen => true
  | .opened => true
  | .watch => true
  | .down => false
  | .cut => false
  | .shut => false

/-- A state from which an action SHUT enters SHUT (R130). -/
def PState.shuttable : PState → Bool
  | .listen => true
  | .opened => true
  | .watch => true
  | .cut => true
  | .down => false
  | .shut => false

/-- What the raiser hands with a cause (R132). -/
structure CauseParts where
  partner : Option Port
  level : Option Nat
  delay : Option Word16
  purpose : Option Purpose
  deriving DecidableEq, Repr

/-- The record request of a cause taken on a port: the parts handed, the rest from the port (R132, R133). -/
def causeReq (p : Port) (c : Cause) (x : CauseParts) (before after : PortRec) (a : IncAction) (hold : Nat) :
    IncidentReq where
  cause := c
  port := some p
  partner := x.partner
  action := a
  state := some after.state
  level := x.level.getD before.level
  penalty := after.penalty
  hold := hold
  loopDelay := x.delay
  purpose := x.purpose

/-- An action of the ladder applied to a port in mode AUTO, the last cause already written (R130, R131, R133). -/
def State.applyAction (s : State) (p : Port) (c : LadderCause) (x : CauseParts) : Action → State
  | .ignore => s
  | .report => s.report p (causeReq p (.ladder c) x s.ports[p] s.ports[p] .report 0)
  | .cut =>
    if s.ports[p].state.cuttable then
      (s.updPort p PortRec.toCut).record (causeReq p (.ladder c) x s.ports[p] s.ports[p].toCut .cut 0)
    else s.report p (causeReq p (.ladder c) x s.ports[p] s.ports[p] .cut 0)
  | .shut =>
    if s.ports[p].state.shuttable then
      let r := s.ports[p].toShut s.profile.hb s.profile.hmax
      (s.updPort p fun _ => r).record (causeReq p (.ladder c) x s.ports[p] r .shut r.hold)
    else s.report p (causeReq p (.ladder c) x s.ports[p] s.ports[p] .shut 0)

/-- The last cause of a port written (R130). -/
def State.setLastCause (s : State) (p : Port) (c : Cause) : State :=
  s.updPort p fun r => { r with lastCause := some c }

/-- The gate controller takes a cause against a port (R130): HELD ignores it, PINNED applies CUT and SHUT as REPORT. -/
def State.applyCause (s : State) (p : Port) (c : LadderCause) (x : CauseParts) : State :=
  match s.ports[p].mode, s.profile.action c with
  | .held, _ => s
  | _, .ignore => s
  | .pinned, _ => (s.setLastCause p (.ladder c)).applyAction p c x .report
  | .auto, a => (s.setLastCause p (.ladder c)).applyAction p c x a

/-- The wanted request is this cause of the port. -/
def causeOf (p : Port) (c : LadderCause) (r : GateReq) : Bool :=
  decide (r.port = some p) &&
    match r.kind with
    | .cause c' _ _ _ _ => decide (c' = c)
    | _ => false

/-- CAUSE_TAKEN (R130, R142). -/
def execCauseTaken (p : Port) (c : CauseTurn) (s : State) : Result :=
  powered s <| s.takeRequest (causeOf p c.cause) c.turn fun s k =>
    match k with
    | .cause _ partner level delay purpose => s.applyCause p c.cause ⟨partner, level, delay, purpose⟩
    | _ => s

/-- PINNED_LOOP taken for p with partner q: reported under p's hold-off; a HELD p ignores it (R91, R133; DEDUCED,
log entry 18). -/
def State.takePinnedLoop (s : State) (p q : Port) : State :=
  if s.ports[p].mode = .held then s
  else
    (s.setLastCause p .pinnedLoop).report p
      (causeReq p .pinnedLoop ⟨some q, none, none, none⟩ s.ports[p] s.ports[p] .report 0)

/-- The wanted request is a PINNED_LOOP of the port. -/
def pinnedLoopOf (p : Port) (r : GateReq) : Bool :=
  decide (r.port = some p) &&
    match r.kind with
    | .pinnedLoop _ => true
    | _ => false

/-- PINNED_LOOP (R91, R142). -/
def execPinnedLoop (l : LoopTurn) (s : State) : Result :=
  powered s <| s.takeRequest (pinnedLoopOf l.port) l.turn fun s k =>
    match k with
    | .pinnedLoop q => s.takePinnedLoop l.port q
    | _ => s

/-- The record request of CLASS_NO_CANDIDATE (R54). -/
def noCandidateReq (level : Nat) : IncidentReq :=
  ⟨.classNoCandidate, none, none, .report, none, level, 0, 0, none, none⟩

/-- The wanted request is a CLASS_NO_CANDIDATE. -/
def isNoCandidate (r : GateReq) : Bool :=
  match r.kind with
  | .classNoCandidate _ => true
  | _ => false

/-- CLASS_NO_CANDIDATE (R54). -/
def execClassNoCandidate (s : State) : Result :=
  powered s <| s.takeRequest isNoCandidate 0 fun s k =>
    match k with
    | .classNoCandidate level =>
      if s.profile.action .classStorm = .ignore then s else s.record (noCandidateReq level)
    | _ => s

/-! ### Openings and expiries (R121, R122, R124 to R126) -/

/-- LISTEN_COMPLETION (R121). -/
def execListenCompletion (p : Port) (s : State) : Result :=
  powered s <| s.takeRequest (exactly p .listenCompletion) 0 fun s _ =>
    if s.ports[p].mode = .auto ∧ s.ports[p].state = .listen then s.updPort p PortRec.toOpen else s

/-- LISTEN_TIMEOUT (R122). -/
def execListenTimeout (p : Port) (s : State) : Result :=
  powered s <|
    let r := s.ports[p]
    if s.running ∧ r.mode = .auto ∧ r.state = .listen ∧ r.listenTimer.due then
      ((s.updPort p PortRec.toOpen).setLastCause p .listenTimeout).record
        (causeReq p .listenTimeout ⟨none, none, none, none⟩ r r.toOpen .report 0)
    else s

/-- RELEASE_TIMER_EXPIRY (R125). -/
def execReleaseTimerExpiry (p : Port) (s : State) : Result :=
  powered s <|
    let r := s.ports[p]
    if s.running ∧ r.mode = .auto ∧ r.state = .cut ∧ r.releaseTimer.due then noteAttempts s (s.listen p) else s

/-- GOOD_STANDING_EXPIRY (R124). -/
def execGoodStandingExpiry (p : Port) (s : State) : Result :=
  powered s <|
    let r := s.ports[p]
    if s.running ∧ r.state = .opened ∧ r.goodTimer.due then
      s.updPort p fun r => { r with penalty := r.penalty - 1, goodTimer := .started }
    else s

/-- HOLD_EXPIRY (R126). -/
def execHoldExpiry (p : Port) (s : State) : Result :=
  powered s <|
    let r := s.ports[p]
    if s.running ∧ r.mode = .auto ∧ r.state = .shut ∧ r.hold = 0 then noteAttempts s (s.listen p) else s

/-! ### Manual changes (section 7.5) -/

/-- The record request of a manual change of a port (R135). -/
def manualReq (p : Port) (r : PortRec) (a : IncAction) : IncidentReq :=
  ⟨.manual, some p, none, a, some r.state, r.level, r.penalty, 0, none, none⟩

/-- A MANUAL record is handed if the change altered the port's mode, state or penalty (R135). -/
def State.manual (before after : State) (p : Port) (a : IncAction) : State :=
  let x := before.ports[p]
  let y := after.ports[p]
  if x.mode = y.mode ∧ x.state = y.state ∧ x.penalty = y.penalty then after else after.record (manualReq p y a)

/-- RELEASE of one port, before the forgive flag (R136). -/
def State.releasePort (s : State) (p : Port) : State :=
  match s.ports[p].mode with
  | .auto => if s.ports[p].state = .cut ∨ s.ports[p].state = .shut then s.listen p else s
  | .held => s.listenOrDown p
  | .pinned => s

/-- RELEASE of one port with its forgive flag and its record (R136). -/
def State.manualRelease (s : State) (p : Port) (forgive : Bool) (a : IncAction) : State :=
  s.manual ((s.releasePort p).updPort p fun r => { r with penalty := if forgive then 0 else r.penalty }) p a

/-- RELEASE applied to every port in ascending order, as one change (R137). -/
def State.manualReleaseAll (s : State) (forgive : Bool) : State :=
  allPorts.foldl (fun s p => s.manualRelease p forgive .releaseAll) s

/-- SET_MODE HELD taken for a port (R138). -/
def State.manualHeld (s : State) (p : Port) : State :=
  if s.ports[p].mode = .held then s else s.manual (s.updPort p PortRec.toHeld) p .setHeld

/-- SET_MODE PINNED taken for a port (R139). -/
def State.manualPinned (s : State) (p : Port) : State :=
  if s.ports[p].mode = .pinned then s else s.manual (s.updPort p PortRec.toPinned) p .setPinned

/-- SET_MODE AUTO taken for a port (R140). -/
def State.manualAuto (s : State) (p : Port) : State :=
  if s.ports[p].mode = .auto then s else s.manual (s.listenOrDown p) p .setAuto

/-- The checks of a gate-changing command after the UNKNOWN check, in the order of R170: privilege, arguments,
privilege by the port's mode, engine HELD, gate hold (R171 to R175). -/
def gateChecks (s : State) (cp : CtlPort) (closed badArg portClosed : Bool) : List (Bool × Status) :=
  [(closed, .denied), (badArg, .badArg), (portClosed, .denied), (!s.running, .busy), (s.heldByOther cp, .held)]

/-- The port named is PINNED and the command comes from control port 1 (R172). -/
def State.pinnedForCp1 (s : State) (cp : CtlPort) (port : Byte) : Bool :=
  fromCp1 cp &&
    match portArg port with
    | some p => decide (s.ports[p].mode = .pinned)
    | none => false

/-- SET_MODE_HELD (R138). -/
def execSetModeHeld (cp : CtlPort) (port : Byte) (s : State) : Result :=
  command cp s (gateChecks s cp false (portArg port).isNone (s.pinnedForCp1 cp port)) <|
    match portArg port with
    | some p => (s.manualHeld p).answer cp .ok [] .fixed
    | none => s

/-- SET_MODE_PINNED (R139). -/
def execSetModePinned (cp : CtlPort) (port : Byte) (s : State) : Result :=
  command cp s (gateChecks s cp (fromCp1 cp) (portArg port).isNone (s.pinnedForCp1 cp port)) <|
    match portArg port with
    | some p => (s.manualPinned p).answer cp .ok [] .fixed
    | none => s

/-- SET_MODE_AUTO (R140); a mode byte of 3 or more is refused with BAD_ARG (R171, log entry 9). -/
def execSetModeAuto (cp : CtlPort) (port mode : Byte) (s : State) : Result :=
  if mode = 1 ∨ mode = 2 then .next s
  else
    command cp s (gateChecks s cp false ((portArg port).isNone || decide (mode ≠ 0)) (s.pinnedForCp1 cp port)) <|
      match portArg port with
      | some p => (noteAttempts s (s.manualAuto p)).answer cp .ok [] .fixed
      | none => s

/-- RELEASE (R136). -/
def execRelease (cp : CtlPort) (port forgive : Byte) (s : State) : Result :=
  command cp s (gateChecks s cp false ((portArg port).isNone || (flagArg forgive).isNone) false) <|
    match portArg port, flagArg forgive with
    | some p, some f => (noteAttempts s (s.manualRelease p f .release)).answer cp .ok [] .fixed
    | _, _ => s

/-- RELEASE_ALL (R137). -/
def execReleaseAll (cp : CtlPort) (forgive : Byte) (s : State) : Result :=
  command cp s (gateChecks s cp false (flagArg forgive).isNone false) <|
    match flagArg forgive with
    | some f => (noteAttempts s (s.manualReleaseAll f)).answer cp .ok [] .fixed
    | none => s

end Sys2Proof.Machine
end

