-- ==== Sys2Proof/Machine/Leds.lean ====
section
/-! DEFINITION. The indicator driver (section 9.6). -/

namespace Sys2Proof.Machine

/-- The pattern of a port: 0 LISTEN, 1 CUT, 2 SHUT, 3 HELD, or none (R167). -/
def PortRec.pattern (r : PortRec) : Option (Fin 4) :=
  match r.mode with
  | .held => some 3
  | .pinned => none
  | .auto =>
    match r.state with
    | .listen => some 0
    | .cut => some 1
    | .shut => some 2
    | .down => none
    | .opened => none
    | .watch => none

/-- The code a pattern shows at a phase (R167). -/
def LedPattern.code (x : LedPattern) (phase : Nat) : LedCode :=
  if x.on = 0 then .off
  else if x.off = 0 then .steady
  else if phase < x.on then .blink
  else .off

/-- The code of one guard port at a refresh (R166, R167). -/
def State.ledCode (s : State) (p : Port) : LedCode :=
  match s.ports[p].pattern with
  | none => .off
  | some i => s.profile.leds[i].code s.led.phases[i]

/-- The two bits of a code on the LED chain (R185). -/
def LedCode.bits : LedCode → BitVec 2
  | .off => 0
  | .steady => 1
  | .blink => 2

/-- The 96 bits of a refresh as they are sent on the LED chain, the first the most significant: the codes in the order of
their shifting, guard port 47 leading (R166, R185). -/
def ledBits (shifting : List LedCode) : BitVec 96 := BitVec.ofNat 96 (pairBits (shifting.map fun c => c.bits.toNat))

/-- LED_REFRESH: the codes are taken, guard port 47 to be shifted first (R166). -/
def execLedRefresh (s : State) : Result :=
  powered s <|
    if s.led.due ∧ s.led.shifting = none then
      { s with led := { s.led with due := false, shifting := some (allPorts.reverse.map s.ledCode) } }
    else s

/-- LED_LATCH: the indicators take the codes shifted out (R166). -/
def execLedLatch (s : State) : Result :=
  powered s <|
    match s.led.shifting with
    | none => s
    | some codes => { s with led := { s.led with shifting := none, shown := codes.reverse } }

end Sys2Proof.Machine
end

