-- ==== Sys2Proof/Machine/Poll.lean ====
section
/-! DEFINITION. The poll service: poll transactions, link changes, delivery, the gate epoch and poll silence
(08_gate_delivery_over_the_poll_lines.md). -/

namespace Sys2Proof.Machine

/-- The 32 fabric ports in ascending order. -/
def fabricPorts : List FabricPort := List.finRange 32

/-- POLL_START: a start condition begins a write phase, abandoning a transaction under way (R143, R148). -/
def execPollStart (l : TapId) (s : State) : Result :=
  powered s (s.updPoll l fun x => { x with phase := .write })

/-- The check that a write phase must carry: its number of 1 bits modulo 16 (R144). -/
def linkCheck (links : BitVec 32) : Nat := (fabricPorts.filter fun f => links.getLsbD f.val).length % 16

/-- One link bit placed into a guard port's record, and the change handed while RUNNING (R7). -/
def State.placeLink (s : State) (p : Port) (up : Bool) : State :=
  if s.ports[p].linkUp = up then s
  else
    let placed := s.updPort p fun r =>
      { r with linkUp := up, lastLinkUp := if up then some s.msTime else r.lastLinkUp }
    if s.running then placed.hand (some p) (if up then .linkUp else .linkDown) else placed

/-- All link bits placed under the map in force, in ascending fabric port order (R144). -/
def State.placeLinks (s : State) (l : TapId) (links : BitVec 32) : State :=
  fabricPorts.foldl (fun s f =>
    match s.profile.mapFabric l f with
    | none => s
    | some p => s.placeLink p (links.getLsbD f.val)) s

/-- The codes sampled at the start of a read phase: the presented codes, OPEN where unmapped (R145). -/
def State.samples (s : State) (l : TapId) : List (Option Port × GateCode) :=
  fabricPorts.map fun f =>
    match s.profile.mapFabric l f with
    | none => (none, .opened)
    | some p => (some p, s.ports[p].presented)

/-- The 64 bits of a read phase as they are sent, the first the most significant: the code of fabric port 0 leads
(R145, R185). -/
def readBits (samples : List (Option Port × GateCode)) : BitVec 64 :=
  BitVec.ofNat 64 (pairBits (samples.map fun x => x.2.rank))

/-- What a poll line sends in its present phase: the read phase alone sends (R143, R145, R185). -/
def PollPhase.sends : PollPhase → Option (BitVec 64)
  | .idle => none
  | .write => none
  | .read samples => some (readBits samples)

/-- POLL_WRITE_END: the check is judged, the link bits are placed, the read phase begins (R144, R145, R185). -/
def execPollWriteEnd (l : TapId) (links : BitVec 32) (check : BitVec 4) (s : State) : Result :=
  powered s <|
    match (s.polls.get l).phase with
    | .write =>
      let judged :=
        if check.toNat = linkCheck (writeLinks links) then noteAttempts s (s.placeLinks l (writeLinks links))
        else s.census .pollErrors none 1
      judged.updPoll l fun x => { x with phase := .read (judged.samples l) }
    | .idle => s
    | .read _ => s

/-- The guard ports of a transaction whose delivered code becomes more closed (R147). -/
def State.closings (s : State) (samples : List (Option Port × GateCode)) : List Port :=
  samples.filterMap fun x =>
    match x with
    | (some p, code) => if s.ports[p].delivered.rank < code.rank then some p else none
    | (none, _) => none

/-- Every sampled guard port takes its sampled code as its delivered code (R146). -/
def State.deliver (s : State) (samples : List (Option Port × GateCode)) : State :=
  samples.foldl (fun s x =>
    match x with
    | (some p, code) => s.updPort p fun r => { r with delivered := code }
    | (none, _) => s) s

/-- POLL_COMPLETE: delivery, closings counted, the epoch stepped once, the silence timer reloaded (R146, R147, R151). -/
def execPollComplete (l : TapId) (s : State) : Result :=
  powered s <|
    match (s.polls.get l).phase with
    | .read samples =>
      let closed := s.closings samples
      let told := closed.foldl (fun s p => s.census .gateClosings (some p) 1) (s.deliver samples)
      { told with epoch := if closed = [] then s.epoch else s.epoch + 1 }.updPoll l fun _ =>
        ⟨.idle, some s.profile.tsil, false, 0⟩
    | .idle => s
    | .write => s

/-- POLL_STOP: the line closes; a transaction still in WRITE or READ is abandoned (R143, R148). -/
def execPollStop (l : TapId) (s : State) : Result :=
  powered s (s.updPoll l fun x => { x with phase := .idle })

/-- SILENCE_EXPIRY (R151). -/
def execSilenceExpiry (l : TapId) (s : State) : Result :=
  powered s <|
    if (s.polls.get l).silence = some 0 then
      (s.updPoll l fun x => { x with silence := none, silent := true }).raiseAttached .pollSilent
    else s

end Sys2Proof.Machine
end

