-- ==== Sys2Proof/Machine/Store.lean ====
section
/-! DEFINITION. Power-on reset, the power-on load, the profile's writes and its save (section 1.7,
11_profile_store_and_start_up.md). -/

namespace Sys2Proof.Machine

/-! ### Reset (R178) -/

/-- RESET_N_ASSERT: every block holds its power-on reset value (R178). -/
def execResetAssert (s : State) : Result :=
  .next { State.powerOn s.unitNumber with resetLow := true, pending := s.pending }

/-- RESET_N_RELEASE: the part starts from its power-on reset values (R178, R151). -/
def execResetRelease (s : State) : Result :=
  .next (if s.resetLow then { State.powerOn s.unitNumber with pending := s.pending } else s)

/-! ### Changes of the profile in force -/

/-- A profile with other windows comes into force: a guard port whose reverse mapping changes has its link field
set to DOWN (R15, R16). -/
def State.remap (s : State) (pr : Profile) : State :=
  { s with
    profile := pr
    ports := Vector.ofFn fun i =>
      if s.profile.reverse i = pr.reverse i then s.ports[i] else { s.ports[i] with linkUp := false } }

/-- Control port 1 after it is detached: cursor dropped, lost count 0, INCIDENT and RING_LOSS cleared, a
READ_INCIDENTS response abandoned (R160). A READ_INCIDENTS that has executed and whose response has not begun is abandoned
with its status byte: a DESIGN CHOICE, since R160 speaks of a response under way (log entry 36). -/
def CtlRec.detach (c : CtlRec) : CtlRec :=
  { (if c.answer.readsIncidents then c.abandon else c) with
    unread := 0, lost := 0, flags := c.flags &&& ~~~(EventFlag.incident.bit ||| EventFlag.ringLoss.bit) }

/-- Control port 1 after it is attached: cursor on the newest record, lost count 0 (R160). -/
def CtlRec.attach (c : CtlRec) : CtlRec := { c with unread := 0, lost := 0 }

/-- The attachment of control port 1 takes a value (R160). -/
def State.setAttached (s : State) (yes : Bool) : State :=
  if s.profile.cp1Attached = yes then s
  else
    { s with
      profile := { s.profile with cp1Attached := yes }
      cps := { s.cps with cp1 := if yes then s.cps.cp1.attach else s.cps.cp1.detach } }.freeRead

/-- A running hold brought down to a new Hmax (R127). -/
def PortRec.capHold (r : PortRec) (hmax : Nat) : PortRec :=
  if r.mode = .auto ∧ r.state = .shut then { r with hold := min r.hold hmax } else r

/-- An indicator pattern has been written: its phase counter starts again (R167). -/
def State.restartPhase (s : State) (i : Fin 4) : State :=
  { s with led := { s.led with phases := s.led.phases.set i 0 } }

/-- One field written with its clamps and its effects; none where a window write is refused with OVERLAP
(R13, R14, R16, R100, R127, R160, R167, R171). -/
def State.writeField (s : State) (f : FieldId) (v : Nat) : Option State :=
  let pr := s.profile.write f v
  match f with
  | .window i part =>
    (s.profile.windowWritten i part v).map fun w =>
      s.remap { s.profile with windows := s.profile.windows.set i w }
  | .hmax => some { s with profile := pr, ports := Vector.ofFn fun i => s.ports[i].capHold pr.hmax }
  | .we => some { s.freeStaleEntries with profile := pr }
  | .ledOn i => some ({ s with profile := pr }.restartPhase i)
  | .ledOff i => some ({ s with profile := pr }.restartPhase i)
  | .cp1Attached => some (s.setAttached pr.cp1Attached)
  | _ => some { s with profile := pr }

/-- A run of fields written one after another; a refused window write ends the run (R13). The flag says that no
write was refused. -/
def State.writeRun (s : State) : List (FieldId × Nat) → State × Bool
  | [] => (s, true)
  | (f, v) :: rest =>
    match s.writeField f v with
    | none => (s, false)
    | some t => t.writeRun rest

/-- WRITE_PROFILE (R13, R171, R173). Without all its value bytes the command has not executed, and no check is made
(R168, R169, log entry 14). -/
def execWriteProfile (cp : CtlPort) (start count : Byte) (values : List Byte) (s : State) : Result :=
  if values.length < valueBytes start count then .next s
  else command cp s
    [(fromCp1 cp, .denied), (!runInRange start count, .badArg),
      (s.storeBusy || (s.running && (writeFields start count).any FieldId.isWindow), .busy)] <|
    match splitValues (writeFields start count) values with
    | none => s
    | some vs =>
      let done := s.writeRun vs
      done.1.answer cp (if done.2 then .ok else .overlap) [] .fixed

/-- The bytes of the field of an index (R171). -/
def State.fieldBytesAt (s : State) (i : Nat) : List Byte :=
  match fieldAt i with
  | none => []
  | some f => s.profile.fieldBytes f

/-- The index after a field's, the last going to the first (R171). -/
def nextField (i : Nat) : Nat := if i + 1 < Config.profileFields then i + 1 else 0

/-- READ_PROFILE: the command, or the beginning of a field, with its copy (R171). -/
def execReadProfile (cp : CtlPort) (ev : ProfileEvent) (s : State) : Result :=
  match ev with
  | .command start =>
    command cp s [(decide (Config.profileFields ≤ start.toNat), .badArg)] <|
      s.answer cp .ok [] (.profile start.toNat)
  | .fieldBegins =>
    powered s <|
      match (s.cps.get cp).answer with
      | .profile i => s.respond cp (s.fieldBytesAt i) (.profile (nextField i))
      | _ => s

/-! ### The power-on load (R178, R179) -/

/-- The profile fields of a load take effect: windows, and patterns that changed; the attachment of control port 1
waits for the end of the load (R15, R160, R167). -/
def State.takeProfile (s : State) (pr : Profile) : State :=
  { s.remap { pr with cp1Attached := s.profile.cp1Attached } with
    led := { s.led with
      phases := Vector.ofFn fun i => if s.profile.leds[i] = pr.leds[i] then s.led.phases[i] else 0 } }

/-- Each port takes the mode of its per-port byte (R4, R179). -/
def State.takeModes (s : State) : State :=
  { s with ports := Vector.ofFn fun i => { s.ports[i] with mode := s.profile.portBytes[i].mode } }

/-- The end of the power-on load (R178, R179, log entry 19). -/
def State.endLoad (s : State) (acked : List Byte) : State :=
  let result := judgeImage acked
  let loaded := if result = .loaded then s.profile.load acked else (s.profile, false)
  let stored := { s.takeProfile loaded.1 with
    store := { s.store with condition := .ready, loadResult := result, windowConflict := loaded.2 } }
  ((stored.raiseAttached .storeStatus).takeModes.setAttached loaded.1.cp1Attached).becomeRunning

/-- LOAD_END (R178). -/
def execLoadEnd (acked : List Byte) (s : State) : Result :=
  powered s <| if s.store.condition = .loading then s.endLoad acked else s

/-! ### The save (R180) -/

/-- SAVE_PROFILE: the image is formed and page 0 is written (R180). -/
def execSaveProfile (cp : CtlPort) (s : State) : Result :=
  command cp s [(fromCp1 cp, .denied), (s.storeBusy, .busy)] <|
    { s with
      store := { s.store with condition := .saving, saveResult := .none, save := some ⟨s.profile.image, 0, 0⟩ }
      }.answer cp .ok [] .fixed

/-- The 16 bytes of the page being written (R180). -/
def SaveJob.pageBytes (j : SaveJob) : List Byte := (j.image.drop (j.page * 16)).take 16

/-- A save ends with a result (R180). -/
def State.endSave (s : State) (r : SaveResult) : State :=
  { s with store := { s.store with condition := .ready, saveResult := r, save := none } }.raiseAttached .storeStatus

/-- SAVE_PAGE_DONE: the next page is sent, or after the sixteenth the save ends SAVED (R180). -/
def execSavePageDone (s : State) : Result :=
  powered s <|
    match s.store.save with
    | none => s
    | some j =>
      if j.page < 15 then { s with store := { s.store with save := some ⟨j.image, j.page + 1, 0⟩ } }
      else s.endSave .saved

/-- SAVE_PAGE_TIMEOUT: 25 ms after the page's last byte without an acknowledge (R180, log entry 20). -/
def execSavePageTimeout (s : State) : Result :=
  powered s <|
    match s.store.save with
    | none => s
    | some j => if 25 ≤ j.waited then s.endSave .failed else s

/-- SAVE_NACK: a byte of a page is not acknowledged (R180). -/
def execSaveNack (s : State) : Result :=
  powered s <|
    match s.store.save with
    | none => s
    | some _ => s.endSave .failed

end Sys2Proof.Machine
end

