-- ==== Sys2Proof/Machine/Metering.lean ====
section
/-! DEFINITION. Flood metering: level updates of the ports and of the class meter, crossings, and the class act
(03_flood_metering.md). -/

namespace Sys2Proof.Machine

/-- A port record after a level update: the new level and the calm mark (R33, R34, R42). -/
def PortRec.meterTo (r : PortRec) (m : MeterProfile) (level : Nat) : PortRec :=
  { r with level := level, calm := decide (level < m.r) }

/-- The request that a change of the calm mark hands (R42). -/
def calmChange (p : Port) (old new : Bool) : List GateReq :=
  if old && !new then [⟨some p, .rise, none⟩] else if !old && new then [⟨some p, .downward, none⟩] else []

/-- A threshold is crossed upward (R41). -/
def crosses (old new threshold : Nat) : Bool := decide (old < threshold ∧ threshold ≤ new)

/-- A cause of the flood meters with the level just after the arrival (R45). -/
def stormCause (c : LadderCause) (level : Nat) : GateReqKind := .cause c none (some level) none none

/-- The crossings of one arrival, in ascending order, with its mark (R43). -/
def arrivalCrossings (p : Port) (m : MeterProfile) (r : PortRec) (new mark : Nat) : List GateReq :=
  let crossed : List GateReq := calmChange p r.calm (decide (new < m.r))
    ++ (if crosses r.level new m.w then [⟨some p, .watch, none⟩] else [])
    ++ (if crosses r.level new m.c then [⟨some p, stormCause .stormCut new, none⟩] else [])
    ++ (if crosses r.level new m.s then [⟨some p, stormCause .stormShut new, none⟩] else [])
  crossed.map fun q => { q with arrival := some mark }

/-- An arrival of weight w at a port level (R33, R41 to R43). -/
def State.portArrival (s : State) (p : Port) (w : Nat) : State :=
  let r := s.ports[p]
  let m := s.profile.meterOf p
  let new := min (r.level + w) Config.levelMax
  { s.updPort p (·.meterTo m new) with gateReqs := s.gateReqs ++ arrivalCrossings p m r new s.freshArrival }

/-- A candidate of the class meter (R52). -/
def PortRec.candidate (r : PortRec) : Bool :=
  decide (r.mode = .auto) && (decide (r.state = .opened) || decide (r.state = .watch)) && decide (1 ≤ r.level)

/-- The top contributor: the candidate with the highest level, the lowest index among equals (R52). -/
def State.topContributor (s : State) : Option Port :=
  allPorts.foldl (fun best p =>
    if s.ports[p].candidate then
      match best with
      | none => some p
      | some b => if s.ports[b].level < s.ports[p].level then some p else some b
    else best) none

/-- The class meter acts: CLASS on the top contributor or CLASS_NO_CANDIDATE; the caller starts the timer (R51, R54). -/
def State.classChoose (s : State) : State :=
  match s.topContributor with
  | some p => s.hand (some p) (.cause .classStorm none (some s.ports[p].level) none none)
  | none => s.hand none (.classNoCandidate (min s.classLevel Config.levelMax))

/-- A class update judged against Cc (R51, log entry 28). -/
def State.classUpdate (s : State) : State :=
  if s.profile.cc ≤ s.classLevel ∧ s.classTimer = none then
    { s.classChoose with classTimer := some s.profile.ti }
  else s

/-- A class arrival of weight w from a port: none from a PINNED port (R48, R50). -/
def State.classArrival (s : State) (p : Port) (w : Nat) : State :=
  if s.ports[p].mode = .pinned then s
  else
    let new := min (s.classLevel + w) Config.classMax
    let warned := if crosses s.classLevel new s.profile.wc then s.raiseAttached .classWarn else s
    { warned with classLevel := new }.classUpdate

/-- The arrival of one flood copy while the engine is RUNNING (R33, R48), the two meters in the order given. -/
def State.arrival (s : State) (order : MeterOrder) (p : Port) (w : Nat) : State :=
  match order with
  | .portsFirst => (s.portArrival p w).classArrival p w
  | .classFirst => (s.classArrival p w).portArrival p w

/-- The drain tick of every port level (R34, R42). -/
def State.drainPorts (s : State) : State :=
  let new (p : Port) : Nat := s.ports[p].level - (s.profile.meterOf p).d
  { s with
    ports := Vector.ofFn fun i => (s.ports[i]).meterTo (s.profile.meterOf i) (new i)
    gateReqs := s.gateReqs ++ allPorts.flatMap fun p =>
      calmChange p s.ports[p].calm (decide (new p < (s.profile.meterOf p).r)) }

/-- The class drain tick (R49). -/
def State.drainClass (s : State) : State :=
  { s with classLevel := s.classLevel - s.profile.dc }.classUpdate

/-- Both drains of one tick, in the order given (R52). -/
def State.drain (s : State) (order : MeterOrder) : State :=
  match order with
  | .portsFirst => s.drainPorts.drainClass
  | .classFirst => s.drainClass.drainPorts

/-- The class interval timer expires, having counted its last tick: the class meter acts again and restarts it, or it stops
(R53). -/
def State.classExpiry (s : State) : State :=
  if s.running && decide (s.classTimer = some 0) then
    if s.profile.cc ≤ s.classLevel then { s.classChoose with classTimer := some s.profile.ti }
    else { s with classTimer := none }
  else s

end Sys2Proof.Machine
end

