-- ==== Sys2Proof/Machine/Scheduler.lean ====
section
/-! DEFINITION. The probe scheduler, the probe list and the tap transmitters (04_probe_scheduling_and_the_probe_list.md,
section 2.5). -/

namespace Sys2Proof.Machine

/-! ### Slots and urgent requests -/

/-- A port accrues: AUTO in LISTEN, OPEN, WATCH or CUT (R58). -/
def PortRec.accrues (r : PortRec) : Bool := decide (r.mode = .auto) && r.state.probed

/-- Accrual of the ports of a slot (R58). -/
def State.accrue (s : State) (slot : Fin 16) : State :=
  { s with
    ports := Vector.ofFn fun i =>
      let r := s.ports[i]
      if r.accrues && decide ((s.profile.portBytes[i]).slot = slot) then { r with backlog := min (r.backlog + 1) 3 }
      else r }

/-- SLOT_EXPIRY (R57, R58). -/
def execSlotExpiry (s : State) : Result :=
  powered s <|
    if s.running ∧ s.slotTimer = some 0 then
      noteAttempts s { s.accrue (s.slotIndex + 1) with
        slotTimer := some s.profile.ts, slotIndex := s.slotIndex + 1 }
    else s

/-- A port record after an urgent request (R60, R61). -/
def PortRec.urged (r : PortRec) (confirm : Bool) : PortRec :=
  match r.mode with
  | .auto =>
    if r.state.probed then { r with backlog := 3, confirm := r.confirm || confirm }
    else if r.state = .down then { r with backlog := 3 }
    else r
  | .pinned => r
  | .held => r

/-- URGENT_REQUEST: the scheduler takes an urgent request handed for the port (R60). -/
def execUrgentRequest (p : Port) (confirm : Bool) (s : State) : Result :=
  powered s <|
    if s.running ∧ (⟨p, confirm⟩ : UrgentReq) ∈ s.urgent then
      noteAttempts s ({ s with urgent := s.urgent.erase ⟨p, confirm⟩ }.updPort p (·.urged confirm))
    else s

/-! ### The arbiter and the service -/

/-- Guard ports in round-robin order after the last served port, 47 going to 0 (R64). -/
def roundRobin (last : Port) : List Port := allPorts.map fun i => last + 1 + i

/-- The port the arbiter chooses for a tap: the highest backlog, the first in round-robin order (R64). -/
def State.arbiter (s : State) (t : TapId) : Option Port :=
  (roundRobin (s.taps.get t).lastServed).foldl (fun best p =>
    if s.servable t p then
      match best with
      | none => some p
      | some b => if s.ports[b].backlog < s.ports[p].backlog then some p else some b
    else best) none

/-- The first sequence number from a counter value that no entry uses, within so many steps (R69). -/
def freshSequence (used : List Word16) : Nat → Word16 → Word16
  | 0, c => c
  | n + 1, c => if c ∈ used then freshSequence used n (c + 1) else c

/-- The sequence number the next service gives (R69). -/
def State.nextSequence (s : State) : Word16 :=
  freshSequence (s.probes.map (·.sequence)) s.probes.length s.seqCounter

/-- The purpose of a service (R67). -/
def PortRec.purpose (r : PortRec) : Purpose :=
  if r.state = .listen ∧ r.listenProbe = none then .listen else if r.confirm then .confirm else .routine

/-- The list entry of a service (R67). -/
def State.newEntry (s : State) (p : Port) : ProbeEntry where
  sequence := s.nextSequence
  egress := p
  emitted := s.msTime
  epoch := s.epoch
  purpose := s.ports[p].purpose
  condition := .queued
  valid := 0
  stale := 0

/-- The probe of a service, formed from the entry and the profile of the moment (R27, R66). -/
def State.newProbe (s : State) (p : Port) (f : FabricPort) : TxProbe where
  sequence := s.nextSequence
  egress := p
  frame := probeFrame s.profile f
    (probePayload s.profile.chassisNumber s.runNumber p s.nextSequence (s.msTime.setWidth 16) s.epoch)
  entryGone := false

/-- A port record after its service (R67). -/
def PortRec.served (r : PortRec) (sequence : Word16) : PortRec :=
  { r with
    backlog := 0, confirm := false
    listenProbe := if r.purpose = .listen then some sequence else r.listenProbe }

/-- Serving a port: one change (R67). The further attempt that follows at once replaces the one made (R63). -/
def State.serve (s : State) (t : TapId) (p : Port) : State :=
  match s.profile.fabricOf t p with
  | none => s
  | some f =>
    { (s.updPort p (·.served s.nextSequence)).updTap t fun x =>
        { x with queue := x.queue ++ [s.newProbe p f], lastServed := p } with
      probes := s.probes ++ [s.newEntry p]
      seqCounter := s.nextSequence + 1
      lastTapServed := t }

/-- What a serving attempt finds (R63). -/
inductive AttemptFind where
  | nothing
  | serve (p : Port)
  | defer (p : Port)
  deriving DecidableEq, Repr

/-- What a serving attempt for a tap finds (R63). -/
def State.attemptFinds (s : State) (t : TapId) : AttemptFind :=
  match s.arbiter t with
  | none => .nothing
  | some p =>
    if Config.queuePlaces ≤ (s.taps.get t).queue.length then .nothing
    else if s.probes.length < Config.listEntries then .serve p
    else .defer p

/-- The attempts for both taps contest the single free entry of the list (R65). -/
def State.contested (s : State) : Bool :=
  decide (s.probes.length + 1 = Config.listEntries ∧ 0 < s.taps.a.attempts ∧ 0 < s.taps.b.attempts) &&
    match s.attemptFinds .a, s.attemptFinds .b with
    | .serve _, .serve _ => true
    | _, _ => false

/-- The tap whose attempt is made: in a contest the tap other than the last tap served (R65). -/
def State.attemptTap (s : State) (t : TapId) : TapId :=
  if s.contested then otherTap s.lastTapServed else t

/-- One attempt made for a tap that has one pending (R63, R68). -/
def State.attempt (s : State) (t : TapId) : State :=
  match s.attemptFinds t with
  | .nothing => s.updTap t fun x => { x with attempts := x.attempts - 1 }
  | .serve p => s.serve t p
  | .defer p =>
    { (s.updTap t fun x => { x with attempts := x.attempts - 1 }).census .probesDeferred (some p) 1 with
      firstDeferred := if s.firstDeferred = none then some p else s.firstDeferred }

/-- SERVING_ATTEMPT: a pending attempt for a tap is made (R63 to R68). -/
def execServingAttempt (t : TapId) (s : State) : Result :=
  powered s <| if 0 < (s.taps.get t).attempts then s.attempt (s.attemptTap t) else s

/-! ### The transmitters (R28) -/

/-- PROBE_SEND_START (R28). -/
def execProbeSendStart (t : TapId) (s : State) : Result :=
  powered s <|
    if (s.taps.get t).linkUp ∧ (s.taps.get t).sending = .idle ∧ (s.taps.get t).queue ≠ [] then
      s.updTap t fun x => { x with sending := .head }
    else s

/-- An entry after its probe's departure (R28). -/
def ProbeEntry.sentAs (e : ProbeEntry) (sequence : Word16) : ProbeEntry :=
  if e.sequence = sequence then { e with condition := .sent } else e

/-- The entry of a departed probe becomes SENT and the probe is counted, unless its entry is gone (R28, R74). -/
def State.departed (s : State) (q : TxProbe) : State :=
  if q.entryGone then s
  else { s with probes := s.probes.map fun (e : ProbeEntry) => e.sentAs q.sequence }.census .probesSent (some q.egress) 1

/-- A probe that an engine restart took out of its queue has been sent to its end: its last byte has left, so it is counted
as PROBES_SENT, but no entry is marked (R31, R165). One whose entry had gone before the restart is not counted (R74,
log entry 22). -/
def State.orphanDeparted (s : State) (q : TxProbe) : State :=
  if q.entryGone then s else s.census .probesSent (some q.egress) 1

/-- PROBE_DEPARTURE: the probe leaves the queue and frees its place (R28, R31, R74, R165). -/
def execProbeDeparture (t : TapId) (s : State) : Result :=
  powered s <|
    match (s.taps.get t).sending with
    | .idle => s
    | .orphan q => (s.updTap t fun x => { x with sending := .idle }).orphanDeparted q
    | .head =>
      match (s.taps.get t).queue with
      | [] => s.updTap t fun x => { x with sending := .idle }
      | q :: rest =>
        (s.updTap t fun x => { x with queue := rest, sending := .idle, attempts := x.attempts + 1 }).departed q

/-! ### Retirement (R73 to R76) -/

/-- An entry has reached its life by the Lp that the last tick read (R73). -/
def State.lifeOver (s : State) (e : ProbeEntry) : Bool :=
  match s.lifeLimit with
  | none => false
  | some lp => decide (lp ≤ s.age e.emitted)

/-- The listen probe of the entry's port is this entry's, and the port is still in LISTEN (R75, R76). -/
def State.listenEntry (s : State) (e : ProbeEntry) : Bool :=
  decide (e.purpose = .listen ∧ s.ports[e.egress].state = .listen ∧
    s.ports[e.egress].listenProbe = some e.sequence)

/-- A port in LISTEN whose listen probe is lost or came back valid: probed again (R75, R76). -/
def PortRec.relisten (r : PortRec) : PortRec := { r with listenProbe := none, backlog := 3 }

/-- What an unsent retirement does to the port and the scheduler, the entry removed (R75). -/
def State.unsent (s : State) (e : ProbeEntry) : State :=
  (noteAttempts s (if s.listenEntry e then s.updPort e.egress PortRec.relisten else s)).entryFreed

/-- The entry of a sequence number retires unsent, if it is in the list (R75). -/
def State.retireUnsent (s : State) (sequence : Word16) : State :=
  match s.probes.find? fun e => decide (e.sequence = sequence) with
  | none => s
  | some e => { s with probes := s.probes.eraseP fun e => decide (e.sequence = sequence) }.unsent e

/-- What the retirement of a SENT entry by life does, the entry removed (R73, R76). -/
def State.retireSent (s : State) (e : ProbeEntry) : State :=
  if e.purpose = .listen then
    if s.listenEntry e then
      if e.valid = 0 then
        (s.updPort e.egress fun r => { r with listenProbe := none }).hand (some e.egress) .listenCompletion
      else noteAttempts s (s.updPort e.egress PortRec.relisten)
    else s
  else if e.valid = 0 ∧ 0 < e.stale then s.handUrgent e.egress false
  else s

/-- PROBE_RETIRE_LIFE: a SENT head entry at its life (R73, R76). -/
def execProbeRetireLife (s : State) : Result :=
  powered s <|
    match s.probes with
    | [] => s
    | e :: rest =>
      if s.running ∧ e.condition = .sent ∧ s.lifeOver e then ({ s with probes := rest }.retireSent e).entryFreed
      else s

/-- A probe taken out of a transmit queue at its entry's life: one being sent stays to its end, its entry gone (R74). -/
def TapRec.dropProbe (x : TapRec) (sequence : Word16) : TapRec :=
  let stays (q : TxProbe) : Bool := decide (q.sequence ≠ sequence) || q.entryGone
  match x.sending, x.queue with
  | .head, q :: rest =>
    { x with
      queue := (if stays q then q else { q with entryGone := true }) :: rest.filter stays
      attempts := x.attempts + (rest.length - (rest.filter stays).length) }
  | _, queue =>
    { x with
      queue := queue.filter stays
      attempts := x.attempts + (queue.length - (queue.filter stays).length) }

/-- QUEUED_ENTRY_LIFE: a QUEUED head entry at its life (R74, R75). -/
def execQueuedEntryLife (s : State) : Result :=
  powered s <|
    match s.probes with
    | [] => s
    | e :: rest =>
      if s.running ∧ e.condition = .queued ∧ s.lifeOver e then
        { s with
          probes := rest
          taps := ⟨s.taps.a.dropProbe e.sequence, s.taps.b.dropProbe e.sequence⟩ }.unsent e
      else s

end Sys2Proof.Machine
end

