-- ==== Sys2Proof/Machine/TapLinks.lean ====
section
/-! DEFINITION. The tap links: link state, the receive checks, the metering handoff and the analysis FIFO
(02_tap_links.md). -/

namespace Sys2Proof.Machine

/-- TAP_LINK_UP: the link state becomes UP; the tap's ports may become probe-eligible (R17). -/
def execTapLinkUp (t : TapId) (s : State) : Result :=
  powered s <| if (s.taps.get t).linkUp then s else noteAttempts s (s.updTap t fun x => { x with linkUp := true })

/-- A tap that has lost its link: FIFO and queue empty, a sending cut off, discard counts kept (R29, R30). -/
def TapRec.lost (x : TapRec) : TapRec := { x with linkUp := false, fifo := [], queue := [], sending := .idle }

/-- TAP_LINK_DOWN: the loss, the unsent retirement of every queued probe in queue order, TAP_DOWN (R29, R30). -/
def execTapLinkDown (t : TapId) (s : State) : Result :=
  powered s <|
    if (s.taps.get t).linkUp then
      (((s.taps.get t).queue.filter fun q => !q.entryGone).foldl (fun s q => s.retireUnsent q.sequence)
        (s.updTap t TapRec.lost)).raiseAttached .tapDown
    else s

/-- What the four receive checks say of a frame (section 2.2): the first that fails, or the ingress port. -/
inductive RxVerdict where
  | tapError
  | tagError
  | unmapped
  | nonFlood
  | accepted (p : Port)
  deriving DecidableEq, Repr

/-- The four receive checks in their order (R18, R19, R20). -/
def receiveCheck (pr : Profile) (t : TapId) (f : TapFrame) : RxVerdict :=
  if !f.fcsGood || decide (f.length < 20 ∨ 16383 < f.length) then .tapError
  else if decide (tagType f.bytes ≠ pr.tapTagType.toNat) || tagDirected f.bytes then .tagError
  else
    match pr.mapFabric t (tagPort f.bytes) with
    | none => .unmapped
    | some p => if isGroup f.bytes then .accepted p else .nonFlood

/-- The slot of an accepted frame (R23). -/
def State.slotOf (s : State) (f : TapFrame) (p : Port) : Slot := ⟨headBytes f, f.length - 4, p, s.msTime⟩

/-- An accepted frame is offered to its tap's FIFO while the engine is RUNNING (R23, R24). -/
def State.offer (s : State) (t : TapId) (f : TapFrame) (p : Port) : State :=
  if (s.taps.get t).fifo.length < Config.fifoSlots then
    s.updTap t fun x => { x with fifo := x.fifo ++ [s.slotOf f p] }
  else (s.census .unanalysed (some p) 1).raiseAttached .tapPressure

/-- A flood copy accepted: counted, metered while RUNNING, then offered to the FIFO while RUNNING (R22, R23). -/
def State.accept (s : State) (t : TapId) (f : TapFrame) (order : MeterOrder) (p : Port) : State :=
  let w := weight (f.length - 4)
  let counted := (s.census .floodFrames (some p) 1).census .floodUnits (some p) w
  if s.running then (counted.arrival order p w).offer t f p else counted

/-- TAP_FRAME_RECEIVED: a frame received whole while the link is UP (R17 to R24). -/
def execTapFrame (t : TapId) (f : TapFrame) (order : MeterOrder) (s : State) : Result :=
  powered s <|
    if (s.taps.get t).linkUp then
      match receiveCheck s.profile t f with
      | .tapError => s.census .tapErrors none 1
      | .tagError => s.census .tagErrors none 1
      | .unmapped => s.updTap t fun x => { x with unmapped := min (x.unmapped + 1) 65535 }
      | .nonFlood => s.updTap t fun x => { x with nonFlood := min (x.nonFlood + 1) 65535 }
      | .accepted p => s.accept t f order p
    else s

end Sys2Proof.Machine
end

