-- ==== Sys2Proof/Machine/Time.lean ====
section
/-! DEFINITION. The 1 ms time base: what one tick does, and the tenth tick (R34, R118, R167). -/

namespace Sys2Proof.Machine

/-- A countdown of ticks: stopped stays stopped, 0 stays 0 until its expiry is taken (log entry 2). -/
def tickDown (t : Option Nat) : Option Nat := t.map (· - 1)

/-- A running gate timer counts one tick and is due once its count has reached the limit read at the tick (R118). -/
def GateTimer.tick (t : GateTimer) (limit : Nat) : GateTimer :=
  if t.running then ⟨true, t.count + 1, t.due || decide (limit ≤ t.count + 1)⟩ else t

/-- The three ms timers of a port at a tick (R118, R122, R124, R125). -/
def PortRec.tick (r : PortRec) (pr : Profile) : PortRec :=
  { r with
    listenTimer := r.listenTimer.tick pr.listenLimit
    releaseTimer := r.releaseTimer.tick pr.tr
    goodTimer := r.goodTimer.tick (pr.tg * 1000) }

/-- A poll line at a tick: the silence timer and the age of the last completion (R151, R153). -/
def PollRec.tick (x : PollRec) : PollRec := { x with silence := tickDown x.silence, age := min (x.age + 1) 65535 }

/-- A save under way at a tick: the ms since the page's last byte (R180). -/
def StoreRec.tick (x : StoreRec) : StoreRec :=
  { x with save := x.save.map fun (j : SaveJob) => { j with waited := j.waited + 1 } }

/-- What a tick does whether the engine is RUNNING or HELD: the ms time, the silence timers, the save, and the tenth
tick and indicator refresh that fall on it (R118, R151, R166). -/
def State.tickClock (s : State) : State :=
  let now := s.msTime + 1
  { s with
    msTime := now
    tenthDue := s.tenthDue || decide (now.toNat % 100 = 0)
    polls := ⟨s.polls.a.tick, s.polls.b.tick⟩
    store := s.store.tick
    led := { s.led with due := s.led.due || decide (now.toNat % 20 = 0) } }

/-- The timers of the engine count, and the tick reads Lp (R53, R57, R73, R107, R118). -/
def State.tickTimers (s : State) : State :=
  { s with
    classTimer := tickDown s.classTimer
    slotTimer := tickDown s.slotTimer
    decayTimer := tickDown s.decayTimer
    lifeLimit := some s.profile.lp
    ports := Vector.ofFn fun i => s.ports[i].tick s.profile }

/-- A tick begins: the time base counts it, and so do the timers of a RUNNING engine (R53, R118). -/
def State.beginTick (s : State) : State := if s.running then s.tickClock.tickTimers else s.tickClock

/-- MS_TICK (R34, R49, R101, R118): the tick begins, unless the class interval expiry has begun it (log entry 10), and while
the engine is RUNNING both meters drain and one set is swept. -/
def execMsTick (order : MeterOrder) (s : State) : Result :=
  powered s <|
    let t := if s.tickBegun then { s with tickBegun := false } else s.beginTick
    if s.running then (t.drain order).sweepVisit else t

/-- CLASS_INTERVAL_EXPIRY (R53), after the drain of its tick or before it. In the latter order the tick begins with the
expiry, and its MS_TICK follows (log entry 10). -/
def execClassIntervalExpiry (order : ExpiryOrder) (s : State) : Result :=
  powered s <|
    match order with
    | .drainFirst => s.classExpiry
    | .expiryFirst =>
      if s.running && !s.tickBegun && decide (s.classTimer = some 1) then
        { s.beginTick with tickBegun := true }.classExpiry
      else s

/-- A phase counter after a tenth tick (R167). -/
def nextPhase (x : LedPattern) (c : Nat) : Nat := if c + 1 < x.on + x.off then c + 1 else 0

/-- A running hold after a tenth tick (R118, R126). -/
def PortRec.tenth (r : PortRec) : PortRec :=
  if r.mode = .auto ∧ r.state = .shut then { r with hold := r.hold - 1 } else r

/-- TENTH_TICK (R118, R167). -/
def execTenthTick (s : State) : Result :=
  powered s <|
    if s.tenthDue then
      { s with
        tenthDue := false
        ports := if s.running then Vector.ofFn fun i => s.ports[i].tenth else s.ports
        led := { s.led with phases := Vector.ofFn fun i => nextPhase s.profile.leds[i] s.led.phases[i] } }
    else s

end Sys2Proof.Machine
end

