-- ==== Sys2Proof/Machine/Dispatch.lean ====
section
/-! DEFINITION. One arm per command: each calls its meaning. -/

namespace Sys2Proof.Machine

-- The effect of a command on everything but the queue.
def exec (i : Instr) (s : State) : Host.Outcome State Fault Refusal :=
  match i with
  | .resetAssert => Sys2Proof.Machine.execResetAssert s
  | .resetRelease => Sys2Proof.Machine.execResetRelease s
  | .loadEnd acked => Sys2Proof.Machine.execLoadEnd acked s
  | .tapLinkUp t => Sys2Proof.Machine.execTapLinkUp t s
  | .tapLinkDown t => Sys2Proof.Machine.execTapLinkDown t s
  | .tapFrame t f order => Sys2Proof.Machine.execTapFrame t f order s
  | .analysisTake => Sys2Proof.Machine.execAnalysisTake s
  | .msTick order => Sys2Proof.Machine.execMsTick order s
  | .tenthTick => Sys2Proof.Machine.execTenthTick s
  | .slotExpiry => Sys2Proof.Machine.execSlotExpiry s
  | .classIntervalExpiry order => Sys2Proof.Machine.execClassIntervalExpiry order s
  | .decayExpiry => Sys2Proof.Machine.execDecayExpiry s
  | .probeRetireLife => Sys2Proof.Machine.execProbeRetireLife s
  | .queuedEntryLife => Sys2Proof.Machine.execQueuedEntryLife s
  | .urgentRequest p confirm => Sys2Proof.Machine.execUrgentRequest p confirm s
  | .servingAttempt t => Sys2Proof.Machine.execServingAttempt t s
  | .probeSendStart t => Sys2Proof.Machine.execProbeSendStart t s
  | .probeDeparture t => Sys2Proof.Machine.execProbeDeparture t s
  | .linkUp p => Sys2Proof.Machine.execLinkUp p s
  | .linkDown p => Sys2Proof.Machine.execLinkDown p s
  | .watchCrossing p => Sys2Proof.Machine.execWatchCrossing p s
  | .downwardCrossing p => Sys2Proof.Machine.execDownwardCrossing p s
  | .riseThroughR p => Sys2Proof.Machine.execRiseThroughR p s
  | .echoScoreChange p => Sys2Proof.Machine.execEchoScoreChange p s
  | .causeTaken p c => Sys2Proof.Machine.execCauseTaken p c s
  | .pinnedLoop l => Sys2Proof.Machine.execPinnedLoop l s
  | .classNoCandidate => Sys2Proof.Machine.execClassNoCandidate s
  | .listenCompletion p => Sys2Proof.Machine.execListenCompletion p s
  | .listenTimeout p => Sys2Proof.Machine.execListenTimeout p s
  | .releaseTimerExpiry p => Sys2Proof.Machine.execReleaseTimerExpiry p s
  | .goodStandingExpiry p => Sys2Proof.Machine.execGoodStandingExpiry p s
  | .holdExpiry p => Sys2Proof.Machine.execHoldExpiry p s
  | .pollStart l => Sys2Proof.Machine.execPollStart l s
  | .pollWriteEnd l links check => Sys2Proof.Machine.execPollWriteEnd l links check s
  | .pollComplete l => Sys2Proof.Machine.execPollComplete l s
  | .pollStop l => Sys2Proof.Machine.execPollStop l s
  | .silenceExpiry l => Sys2Proof.Machine.execSilenceExpiry l s
  | .ledRefresh => Sys2Proof.Machine.execLedRefresh s
  | .ledLatch => Sys2Proof.Machine.execLedLatch s
  | .chipSelectFall cp => Sys2Proof.Machine.execChipSelectFall cp s
  | .chipSelectRise ev => Sys2Proof.Machine.execChipSelectRise ev s
  | .unknownCommand cp byte => Sys2Proof.Machine.execUnknownCommand cp byte s
  | .readIdent ev => Sys2Proof.Machine.execReadIdent ev s
  | .readStatus ev => Sys2Proof.Machine.execReadStatus ev s
  | .deferredPortEmptied cp => Sys2Proof.Machine.execDeferredPortEmptied cp s
  | .readPort cp ev => Sys2Proof.Machine.execReadPort cp ev s
  | .readPorts cp ev => Sys2Proof.Machine.execReadPorts cp ev s
  | .setModeHeld cp port => Sys2Proof.Machine.execSetModeHeld cp port s
  | .setModePinned cp port => Sys2Proof.Machine.execSetModePinned cp port s
  | .setModeAuto cp port mode => Sys2Proof.Machine.execSetModeAuto cp port mode s
  | .release cp port forgive => Sys2Proof.Machine.execRelease cp port forgive s
  | .releaseAll cp forgive => Sys2Proof.Machine.execReleaseAll cp forgive s
  | .takeHold cp => Sys2Proof.Machine.execTakeHold cp s
  | .dropHold cp => Sys2Proof.Machine.execDropHold cp s
  | .breakHold cp => Sys2Proof.Machine.execBreakHold cp s
  | .readIncidents cp ev => Sys2Proof.Machine.execReadIncidents cp ev s
  | .lostCountLowered cp => Sys2Proof.Machine.execLostCountLowered cp s
  | .incidentConsumed cp => Sys2Proof.Machine.execIncidentConsumed cp s
  | .readEvents ev => Sys2Proof.Machine.execReadEvents ev s
  | .eventFlagsCleared cp => Sys2Proof.Machine.execEventFlagsCleared cp s
  | .writeMask cp mask => Sys2Proof.Machine.execWriteMask cp mask s
  | .selectCounter cp counter kind filter => Sys2Proof.Machine.execSelectCounter cp counter kind filter s
  | .readCounter cp ev => Sys2Proof.Machine.execReadCounter cp ev s
  | .readProfile cp ev => Sys2Proof.Machine.execReadProfile cp ev s
  | .writeProfile cp start count values => Sys2Proof.Machine.execWriteProfile cp start count values s
  | .saveProfile cp => Sys2Proof.Machine.execSaveProfile cp s
  | .savePageDone => Sys2Proof.Machine.execSavePageDone s
  | .savePageTimeout => Sys2Proof.Machine.execSavePageTimeout s
  | .saveNack => Sys2Proof.Machine.execSaveNack s
  | .find ev => Sys2Proof.Machine.execFind ev s
  | .findComplete => Sys2Proof.Machine.execFindComplete s
  | .readFind ev => Sys2Proof.Machine.execReadFind ev s
  | .restartEngine cp hold => Sys2Proof.Machine.execRestartEngine cp hold s
  | .releaseEngine cp => Sys2Proof.Machine.execReleaseEngine cp s

end Sys2Proof.Machine
end

