-- ==== Sys2Proof/Safety.lean ====
section
/-! DEFINITION. What the manual says holds at every moment, as properties of a state: the port table, the profile, the
incident ring, the probe list, the tap links, the fingerprint table and the HELD engine. Each is kept by every step;
the obligations say so. -/

namespace Sys2Proof.Machine

/-! ### The port table -/

/-- Mode and state of a port are a pair that R4 allows. -/
def PortRec.legal (r : PortRec) : Bool :=
  match r.mode, r.state with
  | .auto, _ => true
  | .pinned, .down => true
  | .pinned, .opened => true
  | .held, .shut => true
  | _, _ => false

/-- The backlog is the one that R59 gives for mode and state. -/
def PortRec.backlogOk (r : PortRec) : Bool :=
  match r.mode, r.state with
  | .auto, .down => decide (r.backlog = 3)
  | .auto, .shut => decide (r.backlog = 0)
  | .auto, _ => decide (r.backlog ≤ 3)
  | _, _ => decide (r.backlog = 0)

/-- A timer that does not run is stopped at 0 (R3). -/
def GateTimer.clean (t : GateTimer) : Bool := t.running || decide (t = .stopped)

/-- Each timer of a port is stopped at 0 in every state but its own (R3). -/
abbrev PortRec.timersOk (r : PortRec) : Prop :=
  r.listenTimer.clean ∧ r.releaseTimer.clean ∧ r.goodTimer.clean
    ∧ (r.state ≠ .listen → r.listenTimer = .stopped)
    ∧ (r.state ≠ .cut → r.releaseTimer = .stopped)
    ∧ (r.state ≠ .opened → r.goodTimer = .stopped)

/-- The hold is 0 but in AUTO SHUT, and never more than Hmax (R3, R127). -/
abbrev PortRec.holdOk (r : PortRec) (hmax : Nat) : Prop :=
  r.hold ≤ hmax ∧ (¬(r.mode = .auto ∧ r.state = .shut) → r.hold = 0)

/-- Only a port in LISTEN has a listen probe (R59); a port whose confirm mark is set is AUTO, in a state that is
probed, and has backlog 3 (R61). -/
abbrev PortRec.marksOk (r : PortRec) : Prop :=
  (r.state ≠ .listen → r.listenProbe = none)
    ∧ (r.confirm = true → r.mode = .auto ∧ r.state.probed = true ∧ r.backlog = 3)

/-- The numbers of a port record lie in their ranges (R2). -/
abbrev PortRec.bounded (r : PortRec) : Prop := r.level ≤ 65535 ∧ r.echoScore ≤ 15 ∧ r.penalty ≤ 7

/-- The port table obeys R2, R3, R4, R59, R61 and R127. While the engine is HELD every AUTO port is DOWN (R141), and
while the store is LOADING the engine is HELD and every port is AUTO (R178). -/
abbrev State.portsOk (s : State) : Prop :=
  (∀ p : Port, s.ports[p].legal = true ∧ s.ports[p].backlogOk = true ∧ s.ports[p].timersOk
    ∧ s.ports[p].holdOk s.profile.hmax ∧ s.ports[p].marksOk ∧ s.ports[p].bounded
    ∧ (s.running = false → s.ports[p].mode = .auto → s.ports[p].state = .down)
    ∧ (s.store.condition = .loading → s.ports[p].mode = .auto))
  ∧ (s.store.condition = .loading → s.running = false)

/-! ### The profile -/

/-- A window as R10 leaves it. -/
abbrev Window.inRange (w : Window) : Prop :=
  w.first ≤ 31 ∧ w.guard ≤ 47 ∧ w.first + w.count ≤ 32 ∧ w.guard + w.count ≤ 48

/-- A meter profile as R37 and R38 leave it. -/
abbrev MeterProfile.inRange (m : MeterProfile) : Prop :=
  m.d ≤ 4095 ∧ m.r ≤ m.w ∧ m.w ≤ m.c ∧ m.c ≤ m.s ∧ m.s ≤ 65535

/-- Every value of the profile lies in its range, and the clamps between values hold (section 11.1, R10, R14, R38,
R55, R111, R127, R128, R151, R167, R189). -/
abbrev Profile.ok (pr : Profile) : Prop :=
  (∀ i : Fin 4, pr.windows[i].inRange)
    ∧ (∀ i j : Fin 4, i ≠ j → pr.windows[i].overlaps pr.windows[j] = false)
    ∧ (∀ i : Fin 4, pr.meters[i].inRange)
    ∧ pr.groupAddress ||| groupBit = pr.groupAddress
    ∧ pr.dc ≤ 65535 ∧ pr.wc ≤ pr.cc ∧ pr.cc ≤ 1048575 ∧ (10 ≤ pr.ti ∧ pr.ti ≤ 10000)
    ∧ (4 ≤ pr.ts ∧ pr.ts ≤ 255) ∧ (10 ≤ pr.lp ∧ pr.lp ≤ 1000)
    ∧ (100 ≤ pr.listenLimit ∧ pr.listenLimit ≤ 10000) ∧ (100 ≤ pr.tr ∧ pr.tr ≤ 60000)
    ∧ (10 ≤ pr.tg ∧ pr.tg ≤ 3600) ∧ (1 ≤ pr.hb ∧ pr.hb ≤ 600) ∧ (pr.hb ≤ pr.hmax ∧ pr.hmax ≤ 36000)
    ∧ (4 ≤ pr.we ∧ pr.we ≤ 255) ∧ (2 ≤ pr.nr ∧ pr.nr ≤ 15) ∧ (1 ≤ pr.ne ∧ pr.ne ≤ 15)
    ∧ (100 ≤ pr.td ∧ pr.td ≤ 10000) ∧ (1 ≤ pr.holdOff ∧ pr.holdOff ≤ 600) ∧ (10 ≤ pr.tsil ∧ pr.tsil ≤ 2000)
    ∧ (∀ i : Fin 4, pr.leds[i].on ≤ 15 ∧ pr.leds[i].off ≤ 15)

/-! ### The incident ring -/

/-- The ring holds at most 32 records, numbered without a gap up to the newest, and exactly those that the attached
port furthest back has not read; lost counts stay within 255 (R155, R157). A detached control port 1 has no cursor, no
lost count, neither of the ring's flags and no READ_INCIDENTS response (R160). -/
abbrev State.ringOk (s : State) : Prop :=
  s.ring.length ≤ Config.ringRecords
    ∧ s.ring.map (·.number) =
        (List.range s.ring.length).map (fun i => s.nextNumber - BitVec.ofNat 16 (s.ring.length - i))
    ∧ s.ring.length = s.furthest
    ∧ s.cps.cp0.lost ≤ 255 ∧ s.cps.cp1.lost ≤ 255
    ∧ (s.profile.cp1Attached = false →
        s.cps.cp1.unread = 0 ∧ s.cps.cp1.lost = 0 ∧ s.cps.cp1.has .incident = false ∧ s.cps.cp1.has .ringLoss = false
          ∧ s.cps.cp1.answer.readsIncidents = false)

/-! ### The probe list and the tap links -/

/-- The probe list holds at most 64 entries, no two with one sequence number (R69, R71). -/
abbrev State.listOk (s : State) : Prop :=
  s.probes.length ≤ Config.listEntries ∧ (s.probes.map (·.sequence)).Nodup
    ∧ ∀ e ∈ s.probes, e.valid ≤ 255 ∧ e.stale ≤ 255

/-- One tap: at most 16 slots of 96 head bytes, at most 4 probes of 64 bytes before their FCS, both empty while the
link is DOWN, and discard counts of 16 bits (R17, R21, R23, R27). -/
abbrev TapRec.ok (x : TapRec) : Prop :=
  x.fifo.length ≤ Config.fifoSlots ∧ (∀ f ∈ x.fifo, f.head.length = 96)
    ∧ x.queue.length ≤ Config.queuePlaces ∧ (∀ q ∈ x.queue, q.frame.length = 64)
    ∧ (x.linkUp = false → x.fifo = [] ∧ x.queue = [] ∧ x.sending = .idle)
    ∧ x.unmapped ≤ 65535 ∧ x.nonFlood ≤ 65535

/-- Both taps are in order, and so is the frame under analysis (R23, R25). -/
abbrev State.tapsOk (s : State) : Prop :=
  s.taps.a.ok ∧ s.taps.b.ok ∧ ∀ w, s.analysing = some w → w.slot.head.length = 96

/-! ### The fingerprint table -/

/-- An entry has 1 to 15 hits and has seen its first port (R99). -/
abbrev FpEntry.ok (e : FpEntry) : Prop := 1 ≤ e.hits ∧ e.hits ≤ 15 ∧ e.hasSeen e.first = true

/-- The table is in its canonical form and its entries are in order (R99). -/
abbrev State.tableOk (s : State) : Prop := tableWf s.table = true ∧ ∀ x ∈ s.table, x.2.ok

/-! ### The HELD engine -/

/-- While the engine is HELD, nothing of it is left to act: levels 0, timers stopped, no probe, no frame, no
fingerprint and no request waiting (R36, R56, R77, R116, R141, R23, R31). -/
abbrev State.heldOk (s : State) : Prop :=
  s.running = false →
    (∀ p : Port, s.ports[p].level = 0 ∧ s.ports[p].calm = true ∧ s.ports[p].echoScore = 0 ∧ s.ports[p].penalty = 0)
      ∧ s.classLevel = 0 ∧ s.classTimer = none ∧ s.slotTimer = none ∧ s.decayTimer = none ∧ s.slotIndex = 0
      ∧ s.sweep = 0 ∧ s.probes = [] ∧ s.table = [] ∧ s.gateReqs = [] ∧ s.urgent = []
      ∧ s.taps.a.fifo = [] ∧ s.taps.b.fifo = [] ∧ s.taps.a.queue = [] ∧ s.taps.b.queue = []
      ∧ s.taps.a.attempts = 0 ∧ s.taps.b.attempts = 0 ∧ s.analysing = none

/-! ### The other counts -/

/-- Counts that saturate stay within their widths (R48, R153, R165). -/
abbrev State.countsOk (s : State) : Prop :=
  s.classLevel ≤ 1048575 ∧ (∀ i : Fin 4, s.counters[i].count ≤ 4294967295)
    ∧ s.polls.a.age ≤ 65535 ∧ s.polls.b.age ≤ 65535

/-! ### Runs -/

/-- The part is in order: all of the above. -/
abbrev State.ok (s : State) : Prop :=
  s.portsOk ∧ s.profile.ok ∧ s.ringOk ∧ s.listOk ∧ s.tapsOk ∧ s.tableOk ∧ s.heldOk ∧ s.countsOk

/-- A step is safe when it answers a next state: this block neither faults nor refuses. -/
def isNext : Result → Bool
  | .next _ => true
  | .fault _ => false
  | .refused _ => false

end Sys2Proof.Machine
end

