-- ==== Sys2Proof/Certificates/Slice0/Obligations.lean ====
section
/-! DEFINITION. The statements for the provers. Where a statement says `exec c s = .next { s with … }`, every part of
the state that it does not name is unchanged: that is its frame. -/

namespace Sys2Proof.Spec

open Sys2Proof.Machine

/-! ### Words of the statements -/

/-- RESET_N is high. -/
abbrev On (s : State) : Prop := s.resetLow = false

/-- RESET_N is high and the engine is RUNNING. -/
abbrev Running (s : State) : Prop := s.resetLow = false ∧ s.running = true

/-- RESET_N is high and the control port is RECEIVING: a command may execute on it (R168). -/
abbrev Listening (s : State) (cp : CtlPort) : Prop := s.resetLow = false ∧ (s.cps.get cp).phase = .receiving

/-- The condition of its port whose change a request tells: 1 for the link, 2 for where the level stands, 3 for whether the
echo score is 0, and 0 for a request that tells none. -/
def tells : GateReqKind → Nat
  | .linkUp => 1
  | .linkDown => 1
  | .watch => 2
  | .downward => 2
  | .rise => 2
  | .echoFromZero => 3
  | .echoToZero => 3
  | _ => 0

/-- An earlier request has to be taken before a later one of the same port: both are crossings of one arrival, which carry
one mark (R43), or both tell a change of one condition (the model's reading, log entry 3). -/
def Precedes (e q : GateReq) : Prop :=
  e.port = q.port ∧ ((e.arrival ≠ none ∧ e.arrival = q.arrival) ∨ (tells e.kind ≠ 0 ∧ tells e.kind = tells q.kind))

/-- The request of a row is one of a kind for a port. -/
def named (p : Port) (k : GateReqKind) (q : GateReq) : Bool := decide (q.port = some p ∧ q.kind = k)

/-- The request of a row is an echo score change of a port. -/
def scoreChange (p : Port) (q : GateReq) : Bool := named p .echoToZero q || named p .echoFromZero q

/-- The request of a row is a cause of a name on a port. -/
def causeOn (p : Port) (c : LadderCause) (q : GateReq) : Bool := decide (q.port = some p) && match q.kind with
  | .cause x _ _ _ _ => decide (x = c)
  | _ => false

/-- The request of a row is a PINNED_LOOP of a port. -/
def pinnedLoopOn (p : Port) (q : GateReq) : Bool := decide (q.port = some p) && match q.kind with
  | .pinnedLoop _ => true
  | _ => false

/-- The request of a row is a CLASS_NO_CANDIDATE. -/
def noCandidate (q : GateReq) : Bool := match q.kind with
  | .classNoCandidate _ => true
  | _ => false

/-- The request r may be taken by the row that names `own` at turn n: n of its own stand before it, and no request before it
has to be taken first; `rest` are the requests that wait besides it (R43, R142, log entry 3). -/
def InTurn (s : State) (own : GateReq → Bool) (n : Nat) (r : GateReq) (rest : List GateReq) : Prop :=
  own r = true ∧ ∃ xs ys, s.gateReqs = xs ++ r :: ys ∧ rest = xs ++ ys ∧ xs.countP own = n ∧ ∀ q ∈ xs, ¬Precedes q r

/-- The oldest request of a kind for a port may be taken, and `rest` are the others. -/
def Oldest (s : State) (p : Port) (k : GateReqKind) (rest : List GateReq) : Prop :=
  ∃ r, InTurn s (named p k) 0 r rest

/-- The command has executed with status OK and no response bytes (R168). -/
def ok (s : State) (cp : CtlPort) : State := s.answer cp .ok [] .fixed

/-- The command has been refused with a status: it is carried out in no part and has no response bytes (R170). -/
def refuse (s : State) (cp : CtlPort) (st : Status) : State := s.answer cp st [] .fixed

/-- The power-on reset value of the whole part (R2, R178; section 11.1 for the profile): each field as its rule gives it, and
the values of log entries 2, 4, 6, 16 and 21, which are the model's. `unit` is the factory unit number. -/
def powerOn (unit : BitVec 40) : State where
  resetLow := false
  msTime := 0
  tenthDue := false
  tickBegun := false
  running := false
  unitNumber := unit
  profile := {
    chassisNumber := unit.setWidth 32, chassisAddress := 0x02#8 ++ unit, groupAddress := 0x075244000001
    probeType := 0xB4D1, tapTagType := 0xB4D0
    windows := #v[⟨0, 24, 0⟩, ⟨0, 0, 0⟩, ⟨0, 24, 24⟩, ⟨0, 0, 0⟩]
    meters := #v[⟨8, 1500, 4000, 12000, 500⟩, ⟨32, 6000, 16000, 40000, 2000⟩, ⟨8, 1500, 4000, 12000, 500⟩,
      ⟨8, 1500, 4000, 12000, 500⟩]
    portBytes := Vector.ofFn fun i => ⟨0, ⟨i.val % 16, Nat.mod_lt _ (by decide)⟩, .auto⟩
    dc := 64, wc := 40000, cc := 120000, ti := 100, ts := 32, lp := 120, listenLimit := 2000, tr := 2000, tg := 300
    hb := 40, hmax := 6000, we := 40, nr := 4, ne := 6, td := 1000, holdOff := 10, tsil := 250
    ladder := #v[.cut, .shut, .shut, .shut, .cut, .report, .cut]
    leds := #v[⟨1, 0⟩, ⟨4, 4⟩, ⟨1, 1⟩, ⟨15, 0⟩]
    cp1Attached := true }
  store := ⟨.loading, .none, false, .none, none⟩
  ports := Vector.replicate 48 {
    linkUp := false, lastLinkUp := none, mode := .auto, state := .down, delivered := .cut, level := 0, calm := true
    backlog := 3, confirm := false, listenProbe := none, echoScore := 0, penalty := 0, hold := 0
    listenTimer := ⟨false, 0, false⟩, releaseTimer := ⟨false, 0, false⟩, goodTimer := ⟨false, 0, false⟩
    lastCause := none, lastReport := none }
  taps := ⟨⟨false, [], 0, 0, [], .idle, 47, 0⟩, ⟨false, [], 0, 0, [], .idle, 47, 0⟩⟩
  lastTaken := .b
  analysing := none
  classLevel := 0
  classTimer := none
  slotTimer := none
  slotIndex := 0
  lastTapServed := .b
  firstDeferred := none
  seqCounter := 0
  runNumber := 0
  probes := []
  lifeLimit := none
  urgent := []
  table := []
  decayTimer := none
  sweep := 0
  find := .idle
  gateReqs := []
  polls := ⟨⟨.idle, some 250, false, 65535⟩, ⟨.idle, some 250, false, 65535⟩⟩
  epoch := 0
  ring := []
  nextNumber := 0
  counters := #v[⟨.floodFrames, none, 0⟩, ⟨.unanalysed, none, 0⟩, ⟨.returnsValid, none, 0⟩, ⟨.gateClosings, none, 0⟩]
  led := ⟨#v[0, 0, 0, 0], none, List.replicate 48 .off, false⟩
  cps := ⟨⟨.idle, none, [], .fixed, [], 0, 0, 0xFF80, 0, 0⟩, ⟨.idle, none, [], .fixed, [], 0, 0, 0xFF80, 0, 0⟩⟩
  holdOwner := none
  pending := []

/-- LISTEN entry of a port record (R125): listen timer started at 0, listen probe absent, backlog 3, the other timers
and the hold stopped at 0. -/
def inListen (r : PortRec) : PortRec :=
  { r with
    state := .listen, listenProbe := none, backlog := 3, hold := 0
    listenTimer := ⟨true, 0, false⟩, releaseTimer := ⟨false, 0, false⟩, goodTimer := ⟨false, 0, false⟩ }

/-- DOWN of a port record (R120): every timer and the hold stopped at 0, listen probe absent, backlog 3, confirm mark
clear. -/
def inDown (r : PortRec) : PortRec :=
  { r with
    state := .down, listenProbe := none, backlog := 3, confirm := false, hold := 0
    listenTimer := ⟨false, 0, false⟩, releaseTimer := ⟨false, 0, false⟩, goodTimer := ⟨false, 0, false⟩ }

/-- OPEN entry of a port record (R121, R123): good-standing timer started at 0, the other timers stopped at 0, listen
probe absent, backlog kept. -/
def inOpen (r : PortRec) : PortRec :=
  { r with
    state := .opened, listenProbe := none
    listenTimer := ⟨false, 0, false⟩, releaseTimer := ⟨false, 0, false⟩, goodTimer := ⟨true, 0, false⟩ }

/-- The release conditions: level below R and echo score 0 (R125). -/
def calmAndClean (r : PortRec) : Bool := r.calm && r.echoScore == 0

/-- CUT entry of a port record (R131). -/
def inCut (r : PortRec) : PortRec :=
  { r with
    state := .cut, listenProbe := none
    listenTimer := ⟨false, 0, false⟩, goodTimer := ⟨false, 0, false⟩
    releaseTimer := ⟨calmAndClean r, 0, false⟩ }

/-- SHUT entry of a port record by a cause (R127, R131). -/
def inShut (r : PortRec) (hb hmax : Nat) : PortRec :=
  { r with
    state := .shut, listenProbe := none, backlog := 0, confirm := false
    penalty := min (r.penalty + 1) 7
    hold := min (hb * 2 ^ (min (r.penalty + 1) 7 - 1)) hmax
    listenTimer := ⟨false, 0, false⟩, releaseTimer := ⟨false, 0, false⟩, goodTimer := ⟨false, 0, false⟩ }

/-- A port enters LISTEN: its record, and an urgent request for it (R125). A listen completion still waiting for an
earlier stay in LISTEN is void (log entry 17). -/
def enterListen (s : State) (p : Port) (r : PortRec) : State :=
  { s with
    ports := s.ports.set p (inListen r)
    urgent := s.urgent ++ [⟨p, false⟩]
    gateReqs := s.gateReqs.filter fun q => !named p .listenCompletion q }

/-- The port's last report time is absent or at least the report hold-off old (R134). -/
def holdOffOver (s : State) (p : Port) : Bool :=
  match s.ports[p].lastReport with
  | none => true
  | some stamp => decide (s.profile.holdOff * 1000 ≤ (s.msTime - stamp).toNat)

/-- The record is made under the report hold-off of the port (R134). -/
def underHoldOff (s : State) (p : Port) (r : IncidentReq) : State :=
  if holdOffOver s p then
    State.record { s with ports := s.ports.set p { s.ports[p] with lastReport := some s.msTime } } r
  else s

/-- The record request of a cause on a port (R132, R133): `r` is the port after the decision, `level` the level that
was handed, if one was. -/
def causeRecord (p : Port) (c : Cause) (r : PortRec) (a : IncAction) (hold : Nat) (partner : Option Port)
    (level : Option Nat) (delay : Option Word16) (purpose : Option Purpose) : IncidentReq :=
  ⟨c, some p, partner, a, some r.state, level.getD r.level, r.penalty, hold, delay, purpose⟩

/-- The record request of a manual change (R135). -/
def manualRecord (p : Port) (r : PortRec) (a : IncAction) : IncidentReq :=
  ⟨.manual, some p, none, a, some r.state, r.level, r.penalty, 0, none, none⟩

/-- Two taps differ only in the serving attempts that are pending (R63). -/
def SameButAttempts (x y : TapRec) : Prop := y = { x with attempts := y.attempts }

/-- The request that the class meter makes when it acts: CLASS on the top contributor with its level, or
CLASS_NO_CANDIDATE with the class level saturated at 65535 (R51, R52, R54). -/
def classRequest (s : State) : GateReq :=
  match s.topContributor with
  | some p => ⟨some p, .cause .classStorm none (some s.ports[p].level) none none, none⟩
  | none => ⟨none, .classNoCandidate (min s.classLevel 65535), none⟩

/-- A tick begins: the ms time rises by 1, the tenth tick falls due at each whole hundred and a refresh at each whole twenty,
silence timers, poll ages and the page time of a save count, and while RUNNING the engine's timers count and Lp is read
(R53, R57, R73, R107, R118, R151, R153, R166, R180; log entries 2 and 20). -/
def tickBegins (s : State) : State :=
  let now := s.msTime + 1
  let polled (x : PollRec) : PollRec := { x with silence := x.silence.map (· - 1), age := min (x.age + 1) 65535 }
  let count (g : GateTimer) (limit : Nat) : GateTimer :=
    if g.running then ⟨true, g.count + 1, g.due || decide (limit ≤ g.count + 1)⟩ else g
  let clock : State := { s with
    msTime := now
    tenthDue := s.tenthDue || decide (now.toNat % 100 = 0)
    polls := ⟨polled s.polls.a, polled s.polls.b⟩
    store := { s.store with save := s.store.save.map fun (j : SaveJob) => { j with waited := j.waited + 1 } }
    led := { s.led with due := s.led.due || decide (now.toNat % 20 = 0) } }
  if s.running = false then clock else { clock with
    classTimer := s.classTimer.map (· - 1)
    slotTimer := s.slotTimer.map (· - 1)
    decayTimer := s.decayTimer.map (· - 1)
    lifeLimit := some s.profile.lp
    ports := Vector.ofFn fun p => { s.ports[p] with
      listenTimer := count s.ports[p].listenTimer s.profile.listenLimit
      releaseTimer := count s.ports[p].releaseTimer s.profile.tr
      goodTimer := count s.ports[p].goodTimer (1000 * s.profile.tg) } }

/-- A port record when the engine becomes RUNNING (R179). -/
def startRecord (r : PortRec) : PortRec :=
  match r.mode with
  | .auto => if r.linkUp then inListen r else inDown r
  | .pinned => { r with
      state := if r.linkUp then .opened else .down, backlog := 0, goodTimer := ⟨r.linkUp, 0, false⟩ }
  | .held => { r with state := .shut, hold := 0, backlog := 0 }

/-- The engine becomes RUNNING: each port by its mode and link, an urgent request for each port that enters LISTEN, the
slot timer loaded with Ts and the decay timer with Td (R179). -/
def start (s : State) : State :=
  noteAttempts s { s with
    running := true, slotTimer := some s.profile.ts, decayTimer := some s.profile.td
    ports := Vector.ofFn fun p => startRecord s.ports[p]
    urgent := s.urgent ++ (allPorts.filter fun p => decide (s.ports[p].mode = .auto) && s.ports[p].linkUp).map (⟨·, false⟩) }

/-- The request that a row names at turn n stands behind one that has to be taken first: it may not be taken yet (R43, log
entry 3). -/
def Behind (s : State) (own : GateReq → Bool) (n : Nat) : Prop :=
  ∃ xs q ys e, s.gateReqs = xs ++ q :: ys ∧ own q = true ∧ xs.countP own = n ∧ e ∈ xs ∧ Precedes e q

/-- The first n bytes that a READ_INCIDENTS transaction gives: turnaround, status and response bytes, and bytes of value 0
after the last of a response that has no more to copy (R168). -/
def given (c : CtlRec) (n : Nat) : List Byte :=
  let line := 0x00 :: (match c.status with
    | none => []
    | some st => st.code :: c.response)
  let whole := match c.answer with
    | .incidents r => r.lowered && decide (r.left = 0)
    | _ => false
  (if whole then line ++ List.replicate n 0 else line).take n

/-- Control port 1 after it is detached (R160): cursor and lost count dropped, INCIDENT and RING_LOSS clear. A
READ_INCIDENTS response is abandoned: what has gone out is what a command has told (log entry 16), and at least the
turnaround byte of one that has begun, its lost count if it has been lowered, its record count if a record has begun, and
every record consumed. That a READ_INCIDENTS whose response has not begun is abandoned too is the model's choice, log entry
36. -/
def detached (c : CtlRec) : CtlRec :=
  let d : CtlRec := { c with unread := 0, lost := 0, flags := c.flags &&& 0x3FFF }
  let cut (known : Nat) : CtlRec :=
    { d with status := none, response := [], answer := .abandoned, out := given c (max c.out.length known) }
  let length := 1 + (match c.status with
    | none => 0
    | some _ => 1 + c.response.length)
  match c.answer with
  | .waiting (.incidents _) => cut 0
  | .incidents r =>
    if r.lowered = false then cut 1
    else if r.current ≠ none then cut (length - 21)
    else if c.response.length ≤ 2 then cut 3
    else cut length
  | _ => d

/-- A value brought into the range of its field: the nearest bound, the group bit set, a mode code of 3 to HELD, an action
code above 3 to SHUT (R38, R55, R111, R127 to R129, R151, R167, R171, R189); an attachment byte above 1 to 1 (the model's
choice, log entry 34). -/
def inRange (f : FieldId) (v : Nat) : Nat :=
  let near (lo hi : Nat) : Nat := max lo (min v hi)
  match f with
  | .groupAddress => if v.testBit 40 then v else v + 2 ^ 40
  | .meter _ .d => near 0 4095
  | .portByte _ => if v % 4 = 3 then v - 1 else v
  | .wc => near 0 1048575
  | .cc => near 0 1048575
  | .ti => near 10 10000
  | .ts => near 4 255
  | .lp => near 10 1000
  | .listenLimit => near 100 10000
  | .tr => near 100 60000
  | .tg => near 10 3600
  | .hb => near 1 600
  | .hmax => near 1 36000
  | .we => near 4 255
  | .nr => near 2 15
  | .ne => near 1 15
  | .td => near 100 10000
  | .holdOff => near 1 600
  | .tsil => near 10 2000
  | .ladder _ => near 0 3
  | .ledOn _ => near 0 15
  | .ledOff _ => near 0 15
  | .cp1Attached => near 0 1
  | _ => v

/-- The values of the fields after the clamps between them: a meter profile by the three steps of R38, Cc with Wc, Hmax with
Hb (R38, R39, R55, R127). -/
def settled (put : FieldId → Nat) (g : FieldId) : Nat :=
  match g with
  | .meter k .c => max (put g) (put (.meter k .w))
  | .meter k .s => max (put g) (max (put (.meter k .c)) (put (.meter k .w)))
  | .meter k .r => min (put g) (put (.meter k .w))
  | .cc => max (put g) (put .wc)
  | .hmax => max (put g) (put .hb)
  | _ => put g

/-- The offset of a field in the profile image (R189). -/
def imagePlace : FieldId → Nat
  | .chassisNumber => 4
  | .chassisAddress => 8
  | .groupAddress => 14
  | .probeType => 20
  | .tapTagType => 22
  | .window i part => 24 + 3 * i.val + (match part with
    | .first => 0
    | .count => 1
    | .guard => 2)
  | .meter k part => 36 + 10 * k.val + (match part with
    | .d => 0
    | .w => 2
    | .c => 4
    | .s => 6
    | .r => 8)
  | .portByte p => 76 + p.val
  | .dc => 124
  | .wc => 126
  | .cc => 130
  | .ti => 134
  | .ts => 136
  | .lp => 138
  | .listenLimit => 140
  | .tr => 142
  | .tg => 144
  | .hb => 146
  | .hmax => 148
  | .we => 150
  | .nr => 152
  | .ne => 153
  | .td => 154
  | .holdOff => 156
  | .tsil => 158
  | .ladder c => 160 + c.val
  | .ledOn k => 167 + 2 * k.val
  | .ledOff k => 168 + 2 * k.val
  | .cp1Attached => 175

end Sys2Proof.Spec

open Sys2Proof Sys2Proof.Machine Sys2Proof.Spec

/-! ### The queue and the reset line -/

/-- A step takes the command at the front of the queue and runs it with the queue's rest; the command leaves the queue
alone. On an empty queue the block idles (the model's choice, log entry 6). -/
def Obligations.StepRunsTheFrontCommand : Prop :=
  (∀ (c : Instr) (rest : List Instr) (s : State), s.pending = c :: rest → step s = exec c { s with pending := rest })
    ∧ ∀ s : State, s.pending = [] → step s = .next s

/-- Every command of every state answers a next state, with the queue and the unit number as they were: the block has no fault
and no refusal (the model's reading, log entry 31). SET_MODE_AUTO with mode byte 1 or 2, which stands for no transaction,
changes nothing (the model's reading, log entry 9). -/
def Obligations.EveryCommandAnswersAndLeavesTheQueue : Prop :=
  (∀ (c : Instr) (s : State), ∃ t, exec c s = .next t ∧ t.pending = s.pending ∧ t.unitNumber = s.unitNumber)
    ∧ ∀ (cp : CtlPort) (port : Byte) (s : State), exec (.setModeAuto cp port 1) s = .next s
        ∧ exec (.setModeAuto cp port 2) s = .next s

/-- RESET_N low brings every part of the state to its power-on reset value (`powerOn` lists them all: port table, profile
with every default of section 11.1, store status, taps, class meter, scheduler, probe list, echo unit, gate requests, poll
lines, incident ring, census counters, indicators, control ports, gate hold), whatever it was, and keeps the unit number;
its release starts the part from those values, and a release with no reset changes nothing; while RESET_N is low no other
command has an effect (R2, R177, R178). With both taps' discard counts 0, nothing sent, and nothing waiting anywhere; each
port's presented code is then CUT, every flag of a control port clear and every enable of its mask on (R5, R21, R161,
R162). The queue of waiting commands is the model's own and is kept (log entry 6); the rows without effect are log entry
31, and the codes that the indicators show OFF are log entry 21. -/
def Obligations.ResetHoldsThePartAtTheManualsValues : Prop :=
  (∀ s : State, exec .resetAssert s = .next { powerOn s.unitNumber with resetLow := true, pending := s.pending }
    ∧ exec .resetRelease s = .next (if s.resetLow then { powerOn s.unitNumber with pending := s.pending } else s))
    ∧ (∀ (unit : BitVec 40) (p : Port) (cp : CtlPort) (f : EventFlag), (powerOn unit).ports[p].presented = .cut
      ∧ ((powerOn unit).cps.get cp).flags = 0 ∧ ((powerOn unit).cps.get cp).mask &&& f.bit = f.bit)
    ∧ (∀ (c : Instr) (s : State), s.resetLow = true → c ≠ .resetAssert → c ≠ .resetRelease → exec c s = .next s)

/-! ### Control transactions -/

/-- Every control command, encoded as the bytes of its transaction and read back, is itself, whatever bytes follow its
last argument byte; what a transaction's bytes spell is a well-formed control command whose own bytes they begin with;
and no proper beginning of a command's bytes spells a command: it executes at its last argument byte and not before. The
bits of each byte stand most significant first on the line, and a byte partly shifted in is none (R168, R169, R185). That
a mode byte of 3 or more is carried by the SET_MODE_AUTO row is log entry 9, and that a WRITE_PROFILE whose run is out of
range waits for no value bytes is log entry 14. -/
def Obligations.TransactionsReadBack : Prop :=
  ((∀ (c : Instr) (cp : CtlPort) (bytes more : List Byte),
      Instr.wf c = true → encodeTransaction c = some (cp, bytes) → decodeTransaction cp (bytes ++ more) = some c)
    ∧ ∀ (cp : CtlPort) (bytes : List Byte) (c : Instr), decodeTransaction cp bytes = some c →
        Instr.wf c = true ∧ ∃ own more, encodeTransaction c = some (cp, own) ∧ bytes = own ++ more)
    ∧ (∀ (c : Instr) (cp : CtlPort) (bytes : List Byte) (n : Nat),
    Instr.wf c = true → encodeTransaction c = some (cp, bytes) → n < bytes.length →
      decodeTransaction cp (bytes.take n) = none)
    ∧ (∀ (bytes : List Byte) (part : List Bool), part.length < 8 → bytesOfBits (bytes.flatMap byteBits ++ part) = bytes)
    ∧ ∀ (b : Byte) (i : Fin 8), (byteBits b)[i.val]? = some (b.getLsbD (7 - i.val)) ∧ (byteBits b).length = 8

/-- Chip select. Its fall on an IDLE port begins a transaction; a fall in a transaction changes nothing. Its rise while
RECEIVING discards the command with nothing given. Its rise while ANSWERING ends the response: of the bytes shifted out in
full the first is the turnaround byte 0x00, the second the status byte, and the rest are the response bytes copied,
followed after the last of a finished response by bytes of value 0; so a rise in the turnaround or the status byte gives no
response; of an abandoned READ_INCIDENTS response it keeps what had gone out (R160). What the response had left to do is abandoned, and flags, mask, lost count and cursor stay. A control command
whose port is not RECEIVING changes nothing. A byte that names no command is answered UNKNOWN and changes nothing else:
exactly the bytes 0x00 and 0x17 to 0xFF (R168, R169, R170, R185). What State keeps of a transaction on the line, and
when it is cleared, is log entry 16; the falls and rises without effect are log entry 31. -/
def Obligations.TransactionsAreFramedByChipSelect : Prop :=
  (∀ (cp : CtlPort) (shifted : Nat) (s : State), On s →
    let c := s.cps.get cp
    let closed (out : List Byte) : State :=
      { s with cps := s.cps.set cp { c with phase := .idle, status := none, response := [], answer := .fixed, out := out } }
    let line : List Byte := 0x00 :: (match c.status with
      | none => []
      | some st => st.code :: c.response)
    let more : Prop := (∃ r, c.answer = .waiting r) ∨ (∃ p, c.answer = .port p) ∨ (∃ p, c.answer = .ports p)
      ∨ (∃ i, c.answer = .profile i) ∨ ∃ r, c.answer = .incidents r ∧ (r.lowered = false ∨ 0 < r.left)
    exec (.chipSelectFall cp) s = .next (if c.phase = .idle then
        { s with cps := s.cps.set cp { c with
            phase := .receiving, status := none, response := [], answer := .fixed, out := [] } }
      else s)
    ∧ (c.phase = .idle → exec (.chipSelectRise ⟨cp, shifted⟩) s = .next s)
    ∧ (c.phase = .receiving → exec (.chipSelectRise ⟨cp, shifted⟩) s = .next (closed []))
    ∧ (c.phase = .answering → ∃ out, exec (.chipSelectRise ⟨cp, shifted⟩) s = .next (closed out)
        ∧ (c.answer = .abandoned → out = c.out)
        ∧ (more → out = line.take shifted)
        ∧ (¬more → c.answer ≠ .abandoned → out.length = shifted ∧ ∀ k < shifted, out[k]? = some (line.getD k 0))))
    ∧ (∀ (c : Instr) (cp : CtlPort) (bytes : List Byte) (s : State),
    encodeTransaction c = some (cp, bytes) → (s.cps.get cp).phase ≠ .receiving → exec c s = .next s)
    ∧ (∀ (cp : CtlPort) (b : Byte) (s : State), Listening s cp → (b = 0 ∨ 23 ≤ b.toNat) →
    exec (.unknownCommand cp b) s = .next (refuse s cp .unknown))
    ∧ ∀ (cp : CtlPort) (b : Byte) (args : List Byte),
        decodeTransaction cp (b :: args) = some (.unknownCommand cp b) ↔ b = 0 ∨ 23 ≤ b.toNat

/-- The first check that fails decides the status of a gate-changing command, in the order DENIED by port, BAD_ARG,
DENIED by the named port's mode, BUSY, HELD, and the command is carried out in no part (R170 to R175). That a mode byte of 3 or more comes with the SET_MODE_AUTO
row is log entry 9. -/
def Obligations.GateCommandsAreCheckedInOrder : Prop :=
  ∀ (cp : CtlPort) (port x : Byte) (s : State), Listening s cp →
    let other := decide (s.holdOwner ≠ none ∧ s.holdOwner ≠ some cp)
    let badPort := decide (48 ≤ port.toNat)
    let badFlag := decide (2 ≤ x.toNat)
    let pinned := decide (cp = .cp1) && (portArg port).any fun p => decide (s.ports[p].mode = .pinned)
    let judged (c : Instr) (closed bad shut : Bool) : Prop :=
      (closed = true → exec c s = .next (refuse s cp .denied))
        ∧ (closed = false → bad = true → exec c s = .next (refuse s cp .badArg))
        ∧ (closed = false → bad = false → shut = true → exec c s = .next (refuse s cp .denied))
        ∧ (closed = false → bad = false → shut = false → s.running = false → exec c s = .next (refuse s cp .busy))
        ∧ (closed = false → bad = false → shut = false → s.running = true → other = true →
            exec c s = .next (refuse s cp .held))
    judged (.setModeHeld cp port) false badPort pinned
      ∧ judged (.setModePinned cp port) (decide (cp = .cp1)) badPort pinned
      ∧ (x ≠ 1 → x ≠ 2 → judged (.setModeAuto cp port x) false (badPort || decide (x ≠ 0)) pinned)
      ∧ judged (.release cp port x) false (badPort || badFlag) false
      ∧ judged (.releaseAll cp x) false badFlag false

/-- The other commands that a check can refuse are refused as R170 to R173 say, and change nothing else. A WRITE_PROFILE is
checked once its value bytes are complete; before that it has not executed and changes nothing (R168, R169), and one whose
run is out of range waits for no value bytes (log entry 14). -/
def Obligations.OtherCommandsAreRefusedByTheirChecks : Prop :=
  ∀ (cp : CtlPort) (x y z : Byte) (vs : List Byte) (s : State), Listening s cp →
    let loading := decide (s.store.condition = .loading)
    let storeBusy := decide (s.store.condition ≠ .ready)
    let whole : Prop := Instr.wf (.writeProfile cp x y vs) = true
    (cp = .cp1 → exec (.breakHold cp) s = .next (refuse s cp .denied)
      ∧ (whole → exec (.writeProfile cp x y vs) s = .next (refuse s cp .denied))
      ∧ exec (.saveProfile cp) s = .next (refuse s cp .denied)
      ∧ exec (.restartEngine cp x) s = .next (refuse s cp .denied)
      ∧ exec (.releaseEngine cp) s = .next (refuse s cp .denied))
    ∧ (cp = .cp1 → s.profile.cp1Attached = false → exec (.readIncidents cp (.command x)) s = .next (refuse s cp .denied))
    ∧ ((cp = .cp0 ∨ s.profile.cp1Attached = true) → (x = 0 ∨ 9 ≤ x.toNat) →
        exec (.readIncidents cp (.command x)) s = .next (refuse s cp .badArg))
    ∧ (48 ≤ x.toNat → exec (.readPort cp (.command x)) s = .next (refuse s cp .badArg)
        ∧ exec (.readPorts cp (.command x)) s = .next (refuse s cp .badArg)
        ∧ (x ≠ 0xFF → exec (.find (.command cp x)) s = .next (refuse s cp .badArg)))
    ∧ ((x = 0xFF ∨ x.toNat < 48) → (∃ n r, s.find = .scanning n r) →
        exec (.find (.command cp x)) s = .next (refuse s cp .busy))
    ∧ ((4 ≤ x.toNat ∨ 16 ≤ y.toNat ∨ (48 ≤ z.toNat ∧ z ≠ 0xFF)) →
        exec (.selectCounter cp x y z) s = .next (refuse s cp .badArg))
    ∧ (4 ≤ x.toNat → exec (.readCounter cp (.command x)) s = .next (refuse s cp .badArg))
    ∧ (118 ≤ x.toNat → exec (.readProfile cp (.command x)) s = .next (refuse s cp .badArg))
    ∧ (cp = .cp0 → whole → (118 ≤ x.toNat ∨ y = 0 ∨ 118 < x.toNat + y.toNat) →
        exec (.writeProfile cp x y vs) s = .next (refuse s cp .badArg))
    ∧ (cp = .cp0 → whole → x.toNat < 118 → y ≠ 0 → x.toNat + y.toNat ≤ 118 → storeBusy = true →
        exec (.writeProfile cp x y vs) s = .next (refuse s cp .busy))
    ∧ (cp = .cp0 → whole → x.toNat ≤ 16 → 5 < x.toNat + y.toNat → y ≠ 0 → x.toNat + y.toNat ≤ 118 → s.running = true →
        exec (.writeProfile cp x y vs) s = .next (refuse s cp .busy))
    ∧ (x.toNat < 118 → y ≠ 0 → x.toNat + y.toNat ≤ 118 → vs.length < runWidth (writeFields x y) →
        exec (.writeProfile cp x y vs) s = .next s)
    ∧ (cp = .cp0 → storeBusy = true → exec (.saveProfile cp) s = .next (refuse s cp .busy))
    ∧ (cp = .cp0 → 2 ≤ x.toNat → exec (.restartEngine cp x) s = .next (refuse s cp .badArg))
    ∧ (cp = .cp0 → x.toNat < 2 → loading = true → exec (.restartEngine cp x) s = .next (refuse s cp .busy))
    ∧ (cp = .cp0 → loading = true → exec (.releaseEngine cp) s = .next (refuse s cp .busy))

/-! ### Reads -/

/-- READ_IDENT, READ_STATUS, READ_PORT, READ_PORTS, READ_COUNTER, READ_PROFILE and READ_FIND change nothing but the answer of
their own control port. At execution they answer OK (READ_FIND nothing yet) and copy nothing. READ_IDENT, READ_STATUS and
READ_COUNTER are copied when the response begins, and READ_FIND then answers PENDING while a scan runs, else OK with its
result; a port view and a profile field are copied when their first byte begins, from port 47 on to port 0 and from the
last profile field on to the first (R8, R56, R78, R115, R164, R168, R170, R171). When byte 3 of a READ_STATUS response has
been shifted out, the first deferred port is emptied if it still holds the value copied (R68). That these moments are
forms of the rows is log entry 11, a moment of a response that is not under way changes nothing (log entry 31), and the spare
bits of a port view are log entry 38. -/
def Obligations.ReadsChangeNothingButTheirAnswer : Prop :=
  (∀ (cp : CtlPort) (s : State), Listening s cp →
    let executed (a : Answer) : Result := .next (s.answer cp .ok [] a)
    exec (.readIdent (.command cp)) s = executed (.waiting .ident)
    ∧ exec (.readStatus (.command cp)) s = executed (.waiting .status)
    ∧ (∀ p : Port, exec (.readPort cp (.command (BitVec.ofNat 8 p.val))) s = executed (.port p)
        ∧ exec (.readPorts cp (.command (BitVec.ofNat 8 p.val))) s = executed (.ports p))
    ∧ (∀ i : Fin 4, exec (.readCounter cp (.command (BitVec.ofNat 8 i.val))) s = executed (.waiting (.counter i)))
    ∧ (∀ i < 118, exec (.readProfile cp (.command (BitVec.ofNat 8 i))) s = executed (.profile i))
    ∧ exec (.readFind (.command cp)) s = .next { s with
        cps := s.cps.set cp { s.cps.get cp with
          phase := .answering, status := none, response := [], answer := .waiting .find } })
    ∧ (∀ (cp : CtlPort) (s : State), On s →
    let c := s.cps.get cp
    let copied (bytes : List Byte) (a : Answer) : Result :=
      .next { s with cps := s.cps.set cp { c with response := c.response ++ bytes, answer := a } }
    exec (.readIdent (.begins cp)) s = (if c.answer = .waiting .ident then copied s.identBytes .fixed else .next s)
    ∧ exec (.readStatus (.begins cp)) s =
        (if c.answer = .waiting .status then copied s.statusBytes (.status s.firstDeferred) else .next s)
    ∧ exec (.readCounter cp .begins) s = (match c.answer with
        | .waiting (.counter i) => copied s.counters[i].bytes .fixed
        | _ => .next s)
    ∧ exec (.readPort cp .viewBegins) s = (match c.answer with
        | .port p => copied (s.portView p) .fixed
        | _ => .next s)
    ∧ exec (.readPorts cp .viewBegins) s = (match c.answer with
        | .ports p => copied (s.portView p) (.ports (p + 1))
        | _ => .next s)
    ∧ (∀ (i : Nat) (f : FieldId), c.answer = .profile i → fieldOrder[i]? = some f →
        exec (.readProfile cp .fieldBegins) s =
          copied (beBytes f.width (s.profile.value f)) (.profile (if i = 117 then 0 else i + 1)))
    ∧ ((∀ i, c.answer ≠ .profile i) → exec (.readProfile cp .fieldBegins) s = .next s)
    ∧ exec (.readFind (.begins cp)) s = (if c.answer = .waiting .find then .next (match s.find with
        | .idle => s.answer cp .ok [0, 0xFF, 0xFF, 0, 0, 0xFF, 0xFF, 0] .fixed
        | .scanning _ _ => s.answer cp .pending [] .fixed
        | .done r => s.answer cp .ok
            ([2, portByte r.target, starterByte r.starter] ++ beBytes 2 r.count ++ placeBytes r.first
              ++ [byte r.copies.length] ++ r.copies.flatMap copyBytes) .fixed
        | .aborted x p => s.answer cp .ok [3, portByte x, starterByte p, 0, 0, 0xFF, 0xFF, 0] .fixed)
      else .next s)
    ∧ (47 : Port) + 1 = 0 ∧ fieldOrder.length = 118)
    ∧ (∀ (cp : CtlPort) (copied : Option Port) (s : State), On s →
    ((s.cps.get cp).answer = .status copied → exec (.deferredPortEmptied cp) s = .next { s with
      cps := s.cps.set cp { s.cps.get cp with answer := .fixed }
      firstDeferred := if s.firstDeferred = copied then none else s.firstDeferred })
    ∧ ((∀ x, (s.cps.get cp).answer ≠ .status x) → exec (.deferredPortEmptied cp) s = .next s))

/-- The bytes of a response stand as the formats give them: each field of READ_IDENT, READ_STATUS, a port view, READ_COUNTER,
an incident record, and the head and the copies of a FIND result in its place, most significant byte first, in the length
given, with the codes of the formats; a field that is absent or empty reads as R183 says (R8, R183, R185 to R189). Of bits 3..0 of byte 1
of a port view, to which R186 gives no field (log entry 38), nothing is said. -/
def Obligations.ResponsesHaveTheirLayouts : Prop :=
  (∀ s : State, s.portsOk → s.profile.ok → s.listOk → s.tapsOk → s.countsOk →
    let i := s.identBytes
    let v := s.statusBytes
    let port (x : Option Port) : Nat := match x with
      | none => 255
      | some p => p.val
    let flag (b : Bool) : Nat := if b then 1 else 0
    let tap (x : TapRec) (k : Nat) : Prop := beNat (bytesAt v k 1) = flag x.linkUp
      ∧ beNat (bytesAt v (k + 1) 1) = x.fifo.length ∧ beNat (bytesAt v (k + 2) 1) = x.queue.length
      ∧ beNat (bytesAt v (k + 3) 2) = x.unmapped ∧ beNat (bytesAt v (k + 5) 2) = x.nonFlood
    let poll (x : PollRec) (k : Nat) : Prop :=
      beNat (bytesAt v k 1) = (match x.phase with
        | .idle => 0
        | .write => 1
        | .read _ => 2)
      ∧ beNat (bytesAt v (k + 1) 1) = flag x.silent ∧ beNat (bytesAt v (k + 2) 2) = x.age
    i.length = 10 ∧ beNat (bytesAt i 0 5) = s.unitNumber.toNat ∧ beNat (bytesAt i 5 1) = s.runNumber.toNat
      ∧ beNat (bytesAt i 6 1) = (match s.store.condition with
        | .loading => 0
        | .ready => 1
        | .saving => 2)
      ∧ beNat (bytesAt i 7 1) = (match s.store.loadResult with
        | .none => 0
        | .absent => 1
        | .blank => 2
        | .bad => 3
        | .loaded => 4)
      ∧ beNat (bytesAt i 8 1) = flag s.store.windowConflict
      ∧ beNat (bytesAt i 9 1) = (match s.store.saveResult with
        | .none => 0
        | .saved => 1
        | .failed => 2)
      ∧ v.length = 37 ∧ beNat (bytesAt v 0 1) = flag s.running ∧ beNat (bytesAt v 1 2) = s.epoch.toNat
      ∧ beNat (bytesAt v 3 1) = port s.firstDeferred ∧ beNat (bytesAt v 4 1) = s.probes.length
      ∧ beNat (bytesAt v 5 1) = s.slotIndex.val ∧ beNat (bytesAt v 6 2) = s.seqCounter.toNat
      ∧ beNat (bytesAt v 8 1) = s.runNumber.toNat ∧ tap s.taps.a 9 ∧ tap s.taps.b 16 ∧ poll s.polls.a 23 ∧ poll s.polls.b 27
      ∧ beNat (bytesAt v 31 3) = s.classLevel ∧ beNat (bytesAt v 34 1) = flag s.classTimer.isSome
      ∧ beNat (bytesAt v 35 1) = (match s.find with
        | .idle => 0
        | .scanning _ _ => 1
        | .done _ => 2
        | .aborted _ _ => 3)
      ∧ beNat (bytesAt v 36 1) = (match s.holdOwner with
        | none => 0
        | some .cp0 => 1
        | some .cp1 => 2)
      ∧ s.profile.image.length = 256
      ∧ ∀ n : Fin 4, let b := s.counters[n].bytes
          b.length = 6 ∧ censusKinds[beNat (bytesAt b 0 1)]? = some s.counters[n].kind
            ∧ beNat (bytesAt b 1 1) = port s.counters[n].filter ∧ beNat (bytesAt b 2 4) = s.counters[n].count)
    ∧ (∀ x : Incident, x.level ≤ 65535 → x.penalty ≤ 7 → x.hold ≤ 65535 →
      let b := x.bytes
      b.length = 21 ∧ beNat (bytesAt b 0 2) = x.number.toNat ∧ beNat (bytesAt b 2 4) = x.time.toNat
        ∧ beNat (bytesAt b 6 1) = x.cause.code
        ∧ beNat (bytesAt b 7 1) = (x.port.map (·.val)).getD 255 ∧ beNat (bytesAt b 8 1) = (x.partner.map (·.val)).getD 255
        ∧ beNat (bytesAt b 9 1) = x.action.code ∧ beNat (bytesAt b 10 1) = (x.state.map (·.code)).getD 255
        ∧ beNat (bytesAt b 11 2) = x.level ∧ beNat (bytesAt b 13 1) = x.penalty ∧ beNat (bytesAt b 14 2) = x.hold
        ∧ beNat (bytesAt b 16 2) = x.epoch.toNat ∧ beNat (bytesAt b 18 2) = (x.loopDelay.map (·.toNat)).getD 0
        ∧ beNat (bytesAt b 20 1) = (match x.purpose with
          | none => 255
          | some .routine => 0
          | some .listen => 1
          | some .confirm => 2))
    ∧ (∀ r : FindResult, r.count ≤ 1024 → r.copies.length ≤ 8 →
      let b := (FindState.answer (.done r)).2
      b.length = 8 + 21 * r.copies.length ∧ beNat (bytesAt b 0 1) = 2
        ∧ beNat (bytesAt b 1 1) = (r.target.map (·.val)).getD 255
        ∧ beNat (bytesAt b 2 1) = (match r.starter with
          | .cp0 => 0
          | .cp1 => 1)
        ∧ beNat (bytesAt b 3 2) = r.count ∧ (∀ n < 1024, r.first = some n → beNat (bytesAt b 5 2) = n)
        ∧ (r.first = none → beNat (bytesAt b 5 2) = 65535) ∧ beNat (bytesAt b 7 1) = r.copies.length
        ∧ ∀ (k place : Nat) (e : FpEntry), r.copies[k]? = some (place, e) → place < 1024 → e.hits ≤ 15 →
            let at' := 8 + 21 * k
            beNat (bytesAt b at' 2) = place ∧ beNat (bytesAt b (at' + 2) 3) = e.tag.toNat
            ∧ beNat (bytesAt b (at' + 5) 1) = e.first.val ∧ beNat (bytesAt b (at' + 6) 4) = e.firstTime.toNat
            ∧ beNat (bytesAt b (at' + 10) 4) = e.lastTime.toNat ∧ beNat (bytesAt b (at' + 14) 1) = e.hits
            ∧ beNat (bytesAt b (at' + 15) 6) = e.seen.toNat)
    ∧ (∀ (s : State) (p : Port), s.portsOk → s.profile.ok →
    let v := s.portView p
    let r := s.ports[p]
    v.length = 16 ∧ (v.getD 0 0).toNat = p.val
      ∧ ((v.getD 1 0).getLsbD 7 = (s.profile.reverse p).isSome) ∧ (v.getD 1 0).getLsbD 6 = r.linkUp
      ∧ (v.getD 1 0).getLsbD 5 = r.lastCause.isSome ∧ (v.getD 1 0).getLsbD 4 = r.lastLinkUp.isSome
      ∧ (v.getD 2 0).toNat = r.mode.code * 16 + r.state.code
      ∧ (v.getD 3 0).toNat = r.presented.rank * 16 + r.delivered.rank
      ∧ beNat (bytesAt v 4 2) = r.level
      ∧ (v.getD 6 0).toNat = (s.profile.portBytes[p]).meter.val * 16 + (s.profile.portBytes[p]).slot.val
      ∧ (v.getD 7 0).toNat = r.backlog * 16 + r.penalty ∧ (v.getD 8 0).toNat = r.echoScore
      ∧ beNat (bytesAt v 9 2) = r.hold
      ∧ (v.getD 11 0).toNat = (r.lastCause.map Cause.code).getD 0
      ∧ beNat (bytesAt v 12 4) = (r.lastLinkUp.map fun t => (s.msTime - t).toNat).getD 0)
    ∧ [Mode.auto, .pinned, .held].map (·.code) = [0, 1, 2]
    ∧ [PState.down, .listen, .opened, .watch, .cut, .shut].map (·.code) = [0, 1, 2, 3, 4, 5]
    ∧ [GateCode.opened, .cut, .shut].map (·.rank) = [0, 1, 2]
    ∧ [Cause.ladder .stormCut, .ladder .stormShut, .ladder .loop, .ladder .selfLoop, .ladder .echo, .ladder .foreign,
        .ladder .classStorm, .listenTimeout, .pinnedLoop, .classNoCandidate, .manual].map (·.code) = List.range 11
    ∧ [IncAction.report, .cut, .shut, .release, .releaseAll, .setHeld, .setPinned, .setAuto].map (·.code) =
        [1, 2, 3, 4, 5, 6, 7, 8]
    ∧ [Status.ok, .pending, .busy, .denied, .held, .badArg, .unknown, .overlap].map (·.code) = [0, 1, 2, 3, 4, 5, 6, 7]

/-! ### Gate control: link changes, crossings and score changes -/

/-- A link change taken for a port. To UP: an AUTO port in DOWN enters LISTEN with an urgent request, a PINNED port
goes to OPEN with its good-standing timer started, and nothing changes for any other port (R119). To DOWN: an AUTO
port enters DOWN with its timers and hold stopped at 0, a PINNED port goes to DOWN, a HELD port stays (R120). That
requests wait in one list, that serving attempts are counted, that a listen completion of an earlier stay in LISTEN is
void, and that a PINNED port's timer starts at 0 whatever its state was are the model's, log entries 3, 4, 17 and 23. -/
def Obligations.LinkChangesTaken : Prop :=
  (∀ (s : State) (p : Port) (rest : List GateReq), Running s → Oldest s p .linkUp rest →
    let u := { s with gateReqs := rest }
    let r := s.ports[p]
    exec (.linkUp p) s = .next (match r.mode with
      | .auto => if r.state = .down then noteAttempts u (enterListen u p r) else u
      | .pinned => { u with ports := s.ports.set p { r with state := .opened, goodTimer := ⟨true, 0, false⟩ } }
      | .held => u))
    ∧ (∀ (s : State) (p : Port) (rest : List GateReq), Running s → Oldest s p .linkDown rest →
    let u := { s with gateReqs := rest }
    let r := s.ports[p]
    exec (.linkDown p) s = .next (match r.mode with
      | .auto => if r.state = .down then u else { u with ports := s.ports.set p (inDown r) }
      | .pinned => { u with ports := s.ports.set p { r with state := .down, goodTimer := ⟨false, 0, false⟩ } }
      | .held => u))

/-- A WATCH crossing moves an AUTO port from OPEN to WATCH with backlog 3; a downward crossing of R moves an AUTO port
from WATCH back to OPEN and starts the release timer of a clean port in CUT; a rise through R stops that timer. A
change of the echo score to 0 starts the release timer of a calm port in CUT and a change from 0 stops it. No other
port is touched (R44, R46, R108, R123, R125). That requests wait in one list, that serving attempts are counted, and
that the release timer starts only if both its conditions hold and it does not run already are the model's, log entries
3, 4 and 24. -/
def Obligations.CrossingsAndScoreChangesTaken : Prop :=
  (∀ (s : State) (p : Port) (rest : List GateReq), Running s →
    let u := { s with gateReqs := rest }
    let r := s.ports[p]
    (Oldest s p .watch rest → exec (.watchCrossing p) s = .next (
      if r.mode = .auto ∧ r.state = .opened then
        noteAttempts u { u with
          ports := s.ports.set p { r with state := .watch, goodTimer := ⟨false, 0, false⟩, backlog := 3 } }
      else u))
    ∧ (Oldest s p .downward rest → exec (.downwardCrossing p) s = .next (
      if r.mode = .auto ∧ r.state = .watch then { u with ports := s.ports.set p (inOpen r) }
      else if r.mode = .auto ∧ r.state = .cut ∧ calmAndClean r = true ∧ r.releaseTimer.running = false then
        { u with ports := s.ports.set p { r with releaseTimer := ⟨true, 0, false⟩ } }
      else u))
    ∧ (Oldest s p .rise rest → exec (.riseThroughR p) s = .next (
      if r.mode = .auto ∧ r.state = .cut then
        { u with ports := s.ports.set p { r with releaseTimer := ⟨false, 0, false⟩ } }
      else u)))
    ∧ (∀ (s : State) (p : Port) (rest : List GateReq), Running s →
    let u := { s with gateReqs := rest }
    let r := s.ports[p]
    (Oldest s p .echoToZero rest → exec (.echoScoreChange p) s = .next (
      if r.mode = .auto ∧ r.state = .cut ∧ calmAndClean r = true ∧ r.releaseTimer.running = false then
        { u with ports := s.ports.set p { r with releaseTimer := ⟨true, 0, false⟩ } }
      else u))
    ∧ (Oldest s p .echoFromZero rest → exec (.echoScoreChange p) s = .next (
      if r.mode = .auto ∧ r.state = .cut then
        { u with ports := s.ports.set p { r with releaseTimer := ⟨false, 0, false⟩ } }
      else u)))

/-- A request row for which no such request waits changes nothing, as does every request row while the engine is HELD; and
so does a row whose request stands behind an earlier one of the same port that has to be taken first: an earlier crossing of
the same arrival (R43), or an earlier change of the same condition. CAUSE_TAKEN and PINNED_LOOP name one of several waiting
requests by its turn, so that all others are taken in either order (R117, R142). The rows without effect, and the order of
the changes of one condition, are the model's reading, log entry 3. -/
def Obligations.RequestRowsWithoutTheirRequestChangeNothing : Prop :=
  ∀ (s : State) (p : Port) (c : LadderCause) (n : Nat), On s →
    let row (own : GateReq → Bool) (turn : Nat) (i : Instr) : Prop :=
      s.running = false ∨ s.gateReqs.countP own ≤ turn ∨ Behind s own turn → exec i s = .next s
    row (named p .linkUp) 0 (.linkUp p) ∧ row (named p .linkDown) 0 (.linkDown p)
      ∧ row (named p .watch) 0 (.watchCrossing p) ∧ row (named p .downward) 0 (.downwardCrossing p)
      ∧ row (named p .rise) 0 (.riseThroughR p) ∧ row (scoreChange p) 0 (.echoScoreChange p)
      ∧ row (named p .listenCompletion) 0 (.listenCompletion p) ∧ row (causeOn p c) n (.causeTaken p ⟨c, n⟩)
      ∧ row (pinnedLoopOn p) n (.pinnedLoop ⟨p, n⟩) ∧ row noCandidate 0 .classNoCandidate
      ∧ ∀ confirm, (s.running = false ∨ ⟨p, confirm⟩ ∉ s.urgent) → exec (.urgentRequest p confirm) s = .next s

/-! ### Gate control: causes -/

/-- A cause taken against a port. HELD ignores it, and so does the action IGNORE. For any other port the last cause
becomes it. A PINNED port is reported on. An AUTO port is reported on under REPORT, enters CUT under CUT from LISTEN,
OPEN or WATCH, enters SHUT under SHUT from those and from CUT, and is otherwise left and reported on. A state change
is always recorded, a report under the hold-off (R127, R130 to R134). Of several waiting causes on the port any may be taken,
but for an earlier crossing of the same arrival, which goes first (`InTurn`; R43, R142). That requests wait in one list is
the model's choice, log entry 3. -/
def Obligations.CausesTakeTheirLadderAction : Prop :=
  ∀ (s : State) (p : Port) (turn : Nat) (rest : List GateReq) (c : LadderCause) (partner : Option Port) (level : Option Nat)
    (delay : Option Word16) (purpose : Option Purpose) (mark : Option Nat), Running s →
    InTurn s (causeOn p c) turn ⟨some p, .cause c partner level delay purpose, mark⟩ rest →
    let u := { s with gateReqs := rest }
    let r := { s.ports[p] with lastCause := some (Cause.ladder c) }
    let v := { u with ports := s.ports.set p r }
    let rec' (x : PortRec) (a : IncAction) (hold : Nat) : IncidentReq :=
      causeRecord p (.ladder c) x a hold partner (some (level.getD r.level)) delay purpose
    let closed (x : PortRec) (a : IncAction) (hold : Nat) : State :=
      State.record { v with ports := s.ports.set p x } (rec' x a hold)
    let shut := inShut r s.profile.hb s.profile.hmax
    exec (.causeTaken p ⟨c, turn⟩) s = .next (match r.mode, s.profile.ladder[ladderIndex c] with
      | .held, _ => u
      | _, .ignore => u
      | .pinned, _ => underHoldOff v p (rec' r .report 0)
      | .auto, .report => underHoldOff v p (rec' r .report 0)
      | .auto, .cut =>
        if r.state = .listen ∨ r.state = .opened ∨ r.state = .watch then closed (inCut r) .cut 0
        else underHoldOff v p (rec' r .cut 0)
      | .auto, .shut =>
        if r.state = .down ∨ r.state = .shut then underHoldOff v p (rec' r .shut 0)
        else closed shut .shut shut.hold)

/-- The hold of a SHUT doubles with the penalty from Hb and never passes Hmax, and no cause ever opens a port: after
a cause the presented code of no port is less closed than before (R127, R130). -/
def Obligations.CausesNeverOpenAPort : Prop :=
  ∀ (s t : State) (p q : Port) (c : CauseTurn), s.portsOk → exec (.causeTaken p c) s = .next t →
    s.ports[q].presented.rank ≤ t.ports[q].presented.rank
      ∧ s.ports[q].penalty ≤ t.ports[q].penalty
      ∧ (t.ports[q].state ≠ s.ports[q].state → t.ports[q].state = .shut →
          t.ports[q].hold = min (s.profile.hb * 2 ^ (t.ports[q].penalty - 1)) s.profile.hmax
            ∧ t.ports[q].penalty = min (s.ports[q].penalty + 1) 7)

/-- PINNED_LOOP is recorded as REPORT under the hold-off of its port and sets its last cause, unless the port is HELD;
CLASS_NO_CANDIDATE is recorded with no port and the level handed, unless the ladder ignores CLASS; neither moves a
gate (R54, R91, R130, R133). That a HELD port ignores PINNED_LOOP is the model's reading, log entry 18. -/
def Obligations.PinnedLoopAndNoCandidateAreReported : Prop :=
  ∀ (s : State) (p q : Port) (turn level : Nat) (mark : Option Nat) (rest : List GateReq), Running s →
    let u := { s with gateReqs := rest }
    let r := { s.ports[p] with lastCause := some Cause.pinnedLoop }
    (InTurn s (pinnedLoopOn p) turn ⟨some p, .pinnedLoop q, mark⟩ rest → exec (.pinnedLoop ⟨p, turn⟩) s = .next (
      if r.mode = .held then u
      else underHoldOff { u with ports := s.ports.set p r } p
        (causeRecord p .pinnedLoop r .report 0 (some q) none none none)))
    ∧ (InTurn s noCandidate 0 ⟨none, .classNoCandidate level, mark⟩ rest → exec .classNoCandidate s = .next (
      if s.profile.ladder[6] = .ignore then u
      else u.record ⟨.classNoCandidate, none, none, .report, none, level, 0, 0, none, none⟩))

/-! ### Gate control: openings and expiries -/

/-- A listen completion opens an AUTO port that is in LISTEN and leaves every other port (R121). A listen timer that
has reached the listen limit opens its port and records LISTEN_TIMEOUT, which becomes the last cause; without an
expiry nothing changes (R122, log entry 2). The release timer at Tr and the hold at 0 bring an AUTO port from CUT and
from SHUT to LISTEN with an urgent request and no record (R125, R126). Each full good-standing time in OPEN lowers the
penalty by 1 if it is above 0 and restarts the timer at 0, for a PINNED port as for an AUTO one (R124). Without an
expiry nothing changes (log entry 2). The voided listen completions and the counted attempts of LISTEN entry are log
entries 17 and 4. -/
def Obligations.PortTimersAndListenCompletionsAct : Prop :=
  ((∀ (s : State) (p : Port) (rest : List GateReq), Running s → Oldest s p .listenCompletion rest →
    let u := { s with gateReqs := rest }
    let r := s.ports[p]
    exec (.listenCompletion p) s = .next (
      if r.mode = .auto ∧ r.state = .listen then { u with ports := s.ports.set p (inOpen r) } else u))
    ∧ (∀ (s : State) (p : Port), On s →
    let r := s.ports[p]
    let x := { inOpen r with lastCause := some Cause.listenTimeout }
    exec (.listenTimeout p) s = .next (
      if s.running = true ∧ r.mode = .auto ∧ r.state = .listen ∧ r.listenTimer.due = true then
        State.record { s with ports := s.ports.set p x } (causeRecord p .listenTimeout x .report 0 none none none none)
      else s)))
    ∧ ((∀ (s : State) (p : Port), On s →
    let r := s.ports[p]
    exec (.releaseTimerExpiry p) s = .next (
      if s.running = true ∧ r.mode = .auto ∧ r.state = .cut ∧ r.releaseTimer.due = true then
        noteAttempts s (enterListen s p r)
      else s)
    ∧ exec (.holdExpiry p) s = .next (
      if s.running = true ∧ r.mode = .auto ∧ r.state = .shut ∧ r.hold = 0 then noteAttempts s (enterListen s p r)
      else s))
    ∧ (∀ (s : State) (p : Port), On s →
    let r := s.ports[p]
    exec (.goodStandingExpiry p) s = .next (
      if s.running = true ∧ r.state = .opened ∧ r.goodTimer.due = true then
        { s with ports := s.ports.set p { r with penalty := r.penalty - 1, goodTimer := ⟨true, 0, false⟩ } }
      else s)))

/-! ### Manual changes -/

/-- SET_MODE taken (CP0 for any port, CP1 for a port that is not PINNED and a mode that is not PINNED): the named mode
with the state, backlog and timers that come with it, and a MANUAL record; a port already in the mode is not altered
(R135, R138 to R140, R172). The voided listen completions and the counted attempts of LISTEN entry are the model's
choices, log entries 17 and 4. -/
def Obligations.SetModeTaken : Prop :=
  ∀ (s : State) (cp : CtlPort) (p : Port), Listening s cp → s.running = true →
    (s.holdOwner = none ∨ s.holdOwner = some cp) → (cp = .cp0 ∨ s.ports[p].mode ≠ .pinned) →
    let b := BitVec.ofNat 8 p.val
    let r := s.ports[p]
    let stop (x : PortRec) : PortRec := { x with
      listenProbe := none, hold := 0, confirm := false
      listenTimer := ⟨false, 0, false⟩, releaseTimer := ⟨false, 0, false⟩, goodTimer := ⟨false, 0, false⟩ }
    let held := { stop r with mode := .held, state := .shut, backlog := 0 }
    let pinned := { stop r with
      mode := .pinned, state := if r.linkUp then .opened else .down, backlog := 0
      goodTimer := ⟨r.linkUp, 0, false⟩ }
    let listen := { inListen r with mode := .auto, confirm := false }
    let down := { inDown r with mode := .auto }
    exec (.setModeHeld cp b) s = .next (ok (if r.mode = .held then s else
        State.record { s with ports := s.ports.set p held } (manualRecord p held .setHeld)) cp)
    ∧ (cp = .cp0 → exec (.setModePinned cp b) s = .next (ok (if r.mode = .pinned then s else
        State.record { s with ports := s.ports.set p pinned } (manualRecord p pinned .setPinned)) cp))
    ∧ exec (.setModeAuto cp b 0) s = .next (ok (
        if r.mode = .auto then s
        else if r.linkUp = true then
          noteAttempts s (State.record { enterListen s p r with ports := s.ports.set p listen }
            (manualRecord p listen .setAuto))
        else noteAttempts s (State.record { s with ports := s.ports.set p down } (manualRecord p down .setAuto))) cp)

/-- RELEASE taken: an AUTO port in CUT or SHUT enters LISTEN, a HELD port becomes AUTO and enters LISTEN or DOWN by
its link, every other port keeps mode and state; the forgive flag makes the penalty 0; a MANUAL record is made if
mode, state or penalty changed (R135, R136). The voided listen completions and the counted attempts of LISTEN entry
are the model's choices, log entries 17 and 4. -/
def Obligations.ReleaseTaken : Prop :=
  ∀ (s : State) (cp : CtlPort) (p : Port) (forgive : Bool), Listening s cp → s.running = true →
    (s.holdOwner = none ∨ s.holdOwner = some cp) →
    let r := s.ports[p]
    let forgiven (x : PortRec) : PortRec := if forgive then { x with penalty := 0 } else x
    let toListen := (r.mode = .auto ∧ (r.state = .cut ∨ r.state = .shut)) ∨ (r.mode = .held ∧ r.linkUp = true)
    let x := forgiven (
      if r.mode = .auto ∧ (r.state = .cut ∨ r.state = .shut) then inListen r
      else if r.mode = .held ∧ r.linkUp = true then { inListen r with mode := .auto, confirm := false }
      else if r.mode = .held then { inDown r with mode := .auto }
      else r)
    let moved := { (if toListen then enterListen s p r else s) with ports := s.ports.set p x }
    let told := if x.mode = r.mode ∧ x.state = r.state ∧ x.penalty = r.penalty then moved
      else moved.record (manualRecord p x .release)
    exec (.release cp (BitVec.ofNat 8 p.val) (if forgive then 1 else 0)) s = .next (ok (noteAttempts s told) cp)

/-- RELEASE_ALL taken: every port becomes what RELEASE with the same flag would make of it, as one change, with one
urgent request for each port that enters LISTEN and one MANUAL record for each port altered, in ascending order, made by
the ring as every record is (`State.record`); the command answers OK; nothing else changes (R135, R137). The voided listen
completions and the counted attempts of LISTEN entry are the model's choices, log entries 17 and 4. -/
def Obligations.ReleaseAllTaken : Prop :=
  ∀ (s : State) (cp : CtlPort) (forgive : Bool), Listening s cp → s.running = true →
    (s.holdOwner = none ∨ s.holdOwner = some cp) →
    let toListen (p : Port) : Bool := decide ((s.ports[p].mode = .auto ∧ (s.ports[p].state = .cut ∨ s.ports[p].state = .shut))
      ∨ (s.ports[p].mode = .held ∧ s.ports[p].linkUp = true))
    let after (p : Port) : PortRec :=
      let r := s.ports[p]
      let x := if r.mode = .auto ∧ (r.state = .cut ∨ r.state = .shut) then inListen r
        else if r.mode = .held ∧ r.linkUp = true then { inListen r with mode := .auto, confirm := false }
        else if r.mode = .held then { inDown r with mode := .auto }
        else r
      if forgive then { x with penalty := 0 } else x
    let altered (p : Port) : Bool := decide (¬((after p).mode = s.ports[p].mode ∧ (after p).state = s.ports[p].state
      ∧ (after p).penalty = s.ports[p].penalty))
    let moved : State := { s with
      ports := Vector.ofFn after
      urgent := s.urgent ++ (allPorts.filter toListen).map (⟨·, false⟩)
      gateReqs := s.gateReqs.filter fun q => !(allPorts.any fun p => toListen p && named p .listenCompletion q) }
    let told := (allPorts.filter altered).foldl
      (fun (u : State) p => u.record (manualRecord p (after p) .releaseAll)) moved
    exec (.releaseAll cp (if forgive then 1 else 0)) s = .next (ok (noteAttempts s told) cp)

/-! ### The gate hold -/

/-- TAKE_HOLD gives a free hold to its port, keeps its own, and answers HELD where the other port owns it; DROP_HOLD
frees its own hold and otherwise changes nothing; both whatever the engine and the store do (R174, R175). -/
def Obligations.HoldIsTakenAndDropped : Prop :=
  ∀ (s : State) (cp : CtlPort), Listening s cp →
    exec (.takeHold cp) s = .next (
      if s.holdOwner = none ∨ s.holdOwner = some cp then ok { s with holdOwner := some cp } cp else refuse s cp .held)
    ∧ exec (.dropHold cp) s = .next (ok (if s.holdOwner = some cp then { s with holdOwner := none } else s) cp)

/-- BREAK_HOLD from CP0 sets the owner to NONE and answers OK whatever the owner was; if the owner was CP1 it sets
HOLD_BROKEN on CP1, attached or not; from CP1 it is refused DENIED (R176). -/
def Obligations.BreakHoldFreesTheHold : Prop :=
  ∀ s : State,
    (Listening s .cp0 → exec (.breakHold .cp0) s = .next (ok { s with
        holdOwner := none
        cps := if s.holdOwner = some .cp1 then { s.cps with cp1 := s.cps.cp1.raise .holdBroken } else s.cps } .cp0))
    ∧ (Listening s .cp1 → exec (.breakHold .cp1) s = .next (refuse s .cp1 .denied))

/-! ### The incident ring -/

/-- A record request makes one record with the ring's number and the ms time, places it newest and sets INCIDENT on
each attached port. With fewer than 32 records none is lost; with 32 the oldest is overwritten, and each attached port
that had not read it has its lost count raised and RING_LOSS set. A READ_INCIDENTS response of such a port that is
shifting out a record is marked, since that record is the one overwritten (R159); the flags set are also kept as events that
have occurred again since a capture (R163). Everything else of the port stays (R154, R156, R157). -/
def Obligations.RecordIsPlacedNewest : Prop :=
  ∀ (s : State) (r : IncidentReq), s.ringOk →
    let t := s.record r
    t = { s with ring := t.ring, nextNumber := s.nextNumber + 1, cps := t.cps }
      ∧ t.ring.length = min (s.ring.length + 1) 32
      ∧ t.ring = (if s.ring.length = 32 then s.ring.drop 1 else s.ring)
          ++ [⟨s.nextNumber, s.msTime, r.cause, r.port, r.partner, r.action, r.state, r.level, r.penalty, r.hold, s.epoch,
            r.loopDelay, r.purpose⟩]
      ∧ (∀ cp, s.attached cp = false → t.cps.get cp = s.cps.get cp)
      ∧ ∀ cp, s.attached cp = true →
          let c := s.cps.get cp
          let d := t.cps.get cp
          let lost := decide (c.unread = 32)
          d = { c with
            unread := min (c.unread + 1) 32, lost := if lost then min (c.lost + 1) 255 else c.lost
            flags := d.flags, recurred := d.recurred
            answer := match c.answer with
              | .incidents a => if lost then .incidents { a with gone := a.gone || a.current.isSome } else .incidents a
              | x => x }
            ∧ (∀ f : EventFlag, d.has f = (c.has f || decide (f = .incident) || (lost && decide (f = .ringLoss))))
            ∧ ∀ f : EventFlag, decide (d.recurred &&& f.bit ≠ 0) =
                (decide (c.recurred &&& f.bit ≠ 0) || decide (f = .incident) || (lost && decide (f = .ringLoss)))

/-- A READ_INCIDENTS response: the lost count is copied when the response begins; when its byte is out the count is lowered
by the copy and the record count is the smaller of n and the unread count; each record is copied when it begins; when its
last byte is out it is consumed and every record that all attached cursors have passed is freed, unless it was overwritten
since its copy was taken: then nothing moves (R155, R158, R159). A command may tell how many bytes have been shifted out in
full (log entry 16). That these moments are forms of the rows is log entry 11;
that the record count is taken as the lost count byte ends, and that a record whose beginning was not sent begins as it is
consumed, is log entry 15; a loss between a copy of 255 and its lowering is lost with it, log entry 33; rows whose moment
is not due change nothing, log entry 31. -/
def Obligations.IncidentsAreReadAndConsumed : Prop :=
  ∀ (s : State) (cp : CtlPort) (r : IncidentAnswer) (x : Incident), On s →
    let c := s.cps.get cp
    let upd (d : CtlRec) : State := { s with cps := s.cps.set cp d }
    let consumed (gone : Bool) (bytes : List Byte) : State :=
      let t := upd { c with
        unread := if gone then c.unread else c.unread - 1
        response := c.response ++ bytes
        answer := .incidents { r with left := r.left - 1, current := none, gone := false } }
      { t with ring := s.ring.drop (s.ring.length - t.furthest) }
    let due : Prop := r.lowered = true ∧ 0 < r.left ∧ r.current = none
    let next : Prop := s.ring[s.ring.length - c.unread]? = some x ∧ c.unread ≤ s.ring.length ∧ 0 < c.unread
    (∀ n : Nat, 1 ≤ n → n ≤ 8 → c.phase = .receiving → s.attached cp = true →
        exec (.readIncidents cp (.command (BitVec.ofNat 8 n))) s = .next (s.answer cp .ok [] (.waiting (.incidents n))))
    ∧ (∀ n : Nat, c.answer = .waiting (.incidents n) → exec (.readIncidents cp .begins) s = .next (upd { c with
        response := c.response ++ [byte c.lost], answer := .incidents ⟨n, c.lost, false, 0, none, false⟩ }))
    ∧ ((∀ n : Nat, c.answer ≠ .waiting (.incidents n)) → exec (.readIncidents cp .begins) s = .next s)
    ∧ (∀ m : Nat, c.answer.readsIncidents = true → exec (.readIncidents cp (.shiftedOut m)) s =
        .next (upd { c with out := given c (max c.out.length m) }))
    ∧ (∀ m : Nat, c.answer.readsIncidents = false → exec (.readIncidents cp (.shiftedOut m)) s = .next s)
    ∧ (c.answer.readsIncidents = true ↔ (∃ n, c.answer = .waiting (.incidents n)) ∨ ∃ a, c.answer = .incidents a)
    ∧ (c.answer = .incidents r → r.lowered = false → exec (.lostCountLowered cp) s = .next (upd { c with
        lost := c.lost - r.copiedLost
        response := c.response ++ [byte (min r.n c.unread)]
        answer := .incidents { r with lowered := true, left := min r.n c.unread } }))
    ∧ (c.answer = .incidents r → r.lowered = true → exec (.lostCountLowered cp) s = .next s)
    ∧ (c.answer = .incidents r → due → next → exec (.readIncidents cp .recordBegins) s = .next (upd { c with
          response := c.response ++ x.bytes
          answer := .incidents { r with current := some x, gone := false } }))
    ∧ (c.answer = .incidents r → ¬due → exec (.readIncidents cp .recordBegins) s = .next s)
    ∧ (c.answer = .incidents r → r.current = some x → exec (.incidentConsumed cp) s = .next (consumed r.gone []))
    ∧ (c.answer = .incidents r → due → next → exec (.incidentConsumed cp) s = .next (consumed false x.bytes))
    ∧ (c.answer = .incidents r → r.current = none → ¬due → exec (.incidentConsumed cp) s = .next s)
    ∧ ((∀ a, c.answer ≠ .incidents a) → exec (.lostCountLowered cp) s = .next s ∧ exec (.incidentConsumed cp) s = .next s
        ∧ exec (.readIncidents cp .recordBegins) s = .next s)

/-! ### Event flags, masks and census counters -/

/-- READ_EVENTS changes no flag at execution; its response captures them when it begins; when its field is out, exactly the
flags captured set whose event has not occurred since the capture are cleared; a flag raised in between stays set; a rise
of chip select before that clears none (R161, R163). WRITE_MASK stores the enables of the nine flags on its own port and
ignores the other seven bits, and a port's attention line is asserted exactly while one of its flags is set with its enable
on (R162, R185). That the capture is a form of the row is log entry 11, and the rows whose moment is not due change
nothing, log entry 31. -/
def Obligations.FlagsMasksAndTheAttentionLine : Prop :=
  (∀ (s : State) (cp : CtlPort) (captured : Word16) (shifted : Nat),
    let c := s.cps.get cp
    (Listening s cp → exec (.readEvents (.command cp)) s = .next (s.answer cp .ok [] (.waiting .events)))
    ∧ (On s → exec (.readEvents (.begins cp)) s = .next (if c.answer = .waiting .events then { s with
        cps := s.cps.set cp { c with
          response := c.response ++ [(c.flags >>> 8).setWidth 8, c.flags.setWidth 8]
          answer := .events c.flags, recurred := 0 } } else s))
    ∧ (On s → c.answer = .events captured → ∃ d, exec (.eventFlagsCleared cp) s = .next { s with cps := s.cps.set cp d }
        ∧ d = { c with flags := d.flags, answer := .fixed }
        ∧ ∀ f : EventFlag, d.has f =
            (c.has f && !(decide (captured &&& f.bit ≠ 0) && decide (c.recurred &&& f.bit = 0))))
    ∧ (On s → (∀ w, c.answer ≠ .events w) → exec (.eventFlagsCleared cp) s = .next s)
    ∧ (On s → ∃ d, exec (.chipSelectRise ⟨cp, shifted⟩) s = .next { s with cps := s.cps.set cp d } ∧ d.flags = c.flags
        ∧ (c.phase ≠ .idle → ∀ w, d.answer ≠ .events w))
    ∧ ∀ f g : EventFlag, (c.raise f).has g = (c.has g || decide (f = g))
        ∧ decide ((c.raise f).recurred &&& g.bit ≠ 0) = (decide (c.recurred &&& g.bit ≠ 0) || decide (f = g)))
    ∧ (∀ (s : State) (cp : CtlPort) (mask : Word16), Listening s cp →
    ∃ t, exec (.writeMask cp mask) s = .next t
      ∧ t = ok { s with cps := s.cps.set cp { s.cps.get cp with mask := (t.cps.get cp).mask } } cp
      ∧ (∀ f : EventFlag, decide ((t.cps.get cp).mask &&& f.bit ≠ 0) = decide (mask &&& f.bit ≠ 0))
      ∧ (t.attention cp = true ↔ ∃ f : EventFlag, (t.cps.get cp).has f = true ∧ mask &&& f.bit ≠ 0))

/-- SELECT_COUNTER writes kind and filter and zeroes the count of its counter alone; an event counts in every counter
of its kind whose filter is ANY or its port (any filter, for a port-less kind), saturating, and in no other
(R164, R165). -/
def Obligations.CountersCountTheirSelection : Prop :=
  ∀ (s : State) (cp : CtlPort) (i : Fin 4) (k : CensusKind) (p : Option Port) (n : Nat),
    (∀ (kind : Nat) (filter : Option Port), censusKinds[kind]? = some k → Listening s cp →
      exec (.selectCounter cp (BitVec.ofNat 8 i.val) (BitVec.ofNat 8 kind)
          (match filter with
            | none => 0xFF
            | some q => BitVec.ofNat 8 q.val)) s =
        .next (ok { s with counters := s.counters.set i ⟨k, filter, 0⟩ } cp))
    ∧ (let c := s.counters[i]
       (s.census k p n).counters[i] =
        if c.kind = k ∧ (k = .tapErrors ∨ k = .tagErrors ∨ k = .pollErrors ∨ c.filter = none ∨ c.filter = p) then
          { c with count := min (c.count + n) 4294967295 }
        else c)
    ∧ censusKinds.length = 16

/-! ### Poll lines -/

/-- A start condition begins a write phase whatever the phase was; a stop condition returns the line to IDLE and, in
WRITE or READ, abandons the transaction: no link, no delivered code, no epoch and no silence timer changes
(R143, R148). An expired silence timer sets the line's silent mark and POLL_SILENT on each attached port, and stops;
without an expiry nothing changes (R151, log entry 2). -/
def Obligations.PollLinesStartStopAndFallSilent : Prop :=
  (∀ (s : State) (l : TapId), On s →
    exec (.pollStart l) s = .next { s with polls := s.polls.set l { s.polls.get l with phase := .write } }
      ∧ exec (.pollStop l) s = .next { s with polls := s.polls.set l { s.polls.get l with phase := .idle } })
    ∧ (∀ (s : State) (l : TapId), On s →
    exec (.silenceExpiry l) s = .next (
      if (s.polls.get l).silence = some 0 then { s with
        polls := s.polls.set l { s.polls.get l with silence := none, silent := true }
        cps := ⟨s.cps.cp0.raise .pollSilent,
          if s.profile.cp1Attached then s.cps.cp1.raise .pollSilent else s.cps.cp1⟩ }
      else s))

/-- The end of a write phase, with its 32 link bits, that of fabric port 0 first, and its 4-bit check as received. With
a bad check POLL_ERRORS is counted and every link is held. With a good check each mapped guard port takes its link bit, a
port that comes UP its time, and each change is handed to the gate controller while the engine is RUNNING. Either way the
read phase begins with all 32 codes sampled under the map in force, OPEN where unmapped, and sends them from fabric port 0
on, two bits each (R7, R144, R145, R185). In another phase than WRITE nothing changes (log entry 3). Serving attempts are
counted as log entry 4 has it. -/
def Obligations.WritePhaseEndPlacesLinksAndSamples : Prop :=
  ∀ (s : State) (l : TapId) (links : BitVec 32) (check : BitVec 4), On s → s.profile.ok →
    let link (f : FabricPort) : Bool := links.getLsbD (31 - f.val)
    let good := check.toNat = (fabricPorts.filter link).length % 16
    let bit (p : Port) : Option Bool := (s.profile.fabricOf l p).map link
    let changed (f : FabricPort) : Option GateReq := (s.profile.mapFabric l f).bind fun p =>
      if s.ports[p].linkUp = link f then none
      else some ⟨some p, if link f then .linkUp else .linkDown, none⟩
    let placed (p : Port) : PortRec :=
      match bit p with
      | none => s.ports[p]
      | some up => { s.ports[p] with
          linkUp := up
          lastLinkUp := if up = true ∧ s.ports[p].linkUp = false then some s.msTime else s.ports[p].lastLinkUp }
    let code (f : FabricPort) : GateCode := match s.profile.mapFabric l f with
      | none => .opened
      | some p => s.ports[p].presented
    let samples := fabricPorts.map fun f => (s.profile.mapFabric l f, code f)
    let read (t : State) : State := { t with polls := s.polls.set l { s.polls.get l with phase := .read samples } }
    ((s.polls.get l).phase = .write → ¬good →
        exec (.pollWriteEnd l links check) s = .next (read (s.census .pollErrors none 1)))
    ∧ ((s.polls.get l).phase = .write → good →
        exec (.pollWriteEnd l links check) s = .next (read (noteAttempts s { s with
          ports := Vector.ofFn placed
          gateReqs := s.gateReqs ++ (if s.running then fabricPorts.filterMap changed else []) })))
    ∧ ((s.polls.get l).phase ≠ .write → exec (.pollWriteEnd l links check) s = .next s)
    ∧ ∃ word, (PollPhase.read samples).sends = some word ∧ ∀ f : FabricPort,
        word.toNat / 4 ^ (31 - f.val) % 4 = (match code f with
          | .opened => 0
          | .cut => 1
          | .shut => 2)

/-- The completion of a transaction delivers every sampled code at once. Each port whose delivered code becomes more
closed is counted under GATE_CLOSINGS, and the epoch steps by 1 if there is at least one and not otherwise. The line
returns to IDLE with its silence timer reloaded and its silent mark clear. In another phase than READ nothing changes
(R146, R147, R151; the last is the model's reading, log entry 3). -/
def Obligations.CompletionDeliversAndStepsTheEpoch : Prop :=
  ∀ (s : State) (l : TapId) (samples : List (Option Port × GateCode)), On s →
    (samples.filterMap (·.1)).Nodup →
    let code (p : Port) : GateCode :=
      match samples.find? fun x => decide (x.1 = some p) with
      | some x => x.2
      | none => s.ports[p].delivered
    let closed := samples.filterMap fun x => x.1.bind fun p =>
      if s.ports[p].delivered.rank < x.2.rank then some p else none
    ((s.polls.get l).phase = .read samples → ∃ t, exec (.pollComplete l) s = .next t
      ∧ t = { s with ports := t.ports, counters := t.counters, epoch := t.epoch, polls := t.polls }
      ∧ (∀ p : Port, t.ports[p] = { s.ports[p] with delivered := code p })
      ∧ t.epoch = (if closed = [] then s.epoch else s.epoch + 1)
      ∧ t.counters = (closed.foldl (fun (u : State) p => u.census .gateClosings (some p) 1) s).counters
      ∧ t.polls = s.polls.set l ⟨.idle, some s.profile.tsil, false, 0⟩)
    ∧ ((∀ x, (s.polls.get l).phase ≠ .read x) → exec (.pollComplete l) s = .next s)

/-! ### Port indicators -/

/-- A refresh takes the code of every port, port 47 to be shifted first, from its mode, state and the phase of its
pattern; on the chain each code is two bits, 0 off, 1 steady, 2 blink; the latch shows them in port order; neither touches
anything but the driver (R166, R167, R185). That a refresh is a row of its own is log entry 2, and a latch with nothing
being shifted changes nothing, log entry 31. -/
def Obligations.IndicatorsShowModeAndState : Prop :=
  ∀ (s : State), On s →
    let pattern (r : PortRec) : Option (Fin 4) :=
      if r.mode = .held then some 3
      else if r.mode = .pinned then none
      else if r.state = .listen then some 0
      else if r.state = .cut then some 1
      else if r.state = .shut then some 2
      else none
    let code (p : Port) : LedCode :=
      match pattern s.ports[p] with
      | none => .off
      | some i =>
        if s.profile.leds[i].on = 0 then .off
        else if s.profile.leds[i].off = 0 then .steady
        else if s.led.phases[i] < s.profile.leds[i].on then .blink
        else .off
    exec .ledRefresh s = .next (
      if s.led.due = true ∧ s.led.shifting = none then
        { s with led := { s.led with due := false, shifting := some (allPorts.map code).reverse } }
      else s)
    ∧ (∀ p : Port, (ledBits (allPorts.map code).reverse).toNat / 4 ^ p.val % 4 = (match code p with
        | .off => 0
        | .steady => 1
        | .blink => 2))
    ∧ ∀ codes, (s.led.shifting = some codes →
          exec .ledLatch s = .next { s with led := { s.led with shifting := none, shown := codes.reverse } })
        ∧ (s.led.shifting = none → exec .ledLatch s = .next s)

/-! ### The port map, the presented codes and eligibility -/

/-- A fabric port maps through window 0 of its tap, else through window 1, else to none (R11); and the reverse mapping of
a guard port names exactly the tap and the fabric port that map to it (R12). -/
def Obligations.PortMapAndItsReverseAgree : Prop :=
  ∀ (pr : Profile) (t : TapId) (f : FabricPort) (g : Port), pr.ok →
    let ws : Window × Window := match t with
      | .a => (pr.windows[0], pr.windows[1])
      | .b => (pr.windows[2], pr.windows[3])
    let reaches (w : Window) : Prop := w.first ≤ f.val ∧ f.val < w.first + w.count
    let lands (w : Window) : Prop := g.val = w.guard + (f.val - w.first)
    (pr.mapFabric t f = some g ↔ (reaches ws.1 ∧ lands ws.1) ∨ (¬reaches ws.1 ∧ reaches ws.2 ∧ lands ws.2))
      ∧ (pr.mapFabric t f = none ↔ ¬reaches ws.1 ∧ ¬reaches ws.2)
      ∧ (pr.reverse g = some (t, f) ↔ pr.mapFabric t f = some g)

/-- The presented code of every port is the one the table of R5 gives for its mode and state, mapped or not; a read
phase that starts takes it for each mapped fabric port and OPEN for the others; and after power-on reset it is CUT for
every port. -/
def Obligations.PresentedCodeFollowsModeAndState : Prop :=
  (∀ r : PortRec, r.legal = true →
      r.presented = (match r.mode, r.state with
        | .auto, .down => GateCode.cut
        | .auto, .listen => .cut
        | .auto, .opened => .opened
        | .auto, .watch => .opened
        | .auto, .cut => .cut
        | .auto, .shut => .shut
        | .pinned, _ => .opened
        | .held, _ => .shut))
    ∧ (∀ (s : State) (l : TapId) (links : BitVec 32) (check : BitVec 4), On s → (s.polls.get l).phase = .write →
        ∃ t, exec (.pollWriteEnd l links check) s = .next t
          ∧ (t.polls.get l).phase = .read (fabricPorts.map fun f => match s.profile.mapFabric l f with
              | some p => (some p, t.ports[p].presented)
              | none => (none, .opened)))
    ∧ ∀ p : Port, State.reset.ports[p].mode = .auto ∧ State.reset.ports[p].state = .down
        ∧ State.reset.ports[p].presented = .cut

/-- A port is probe-eligible on a tap while the engine is RUNNING, its mode is AUTO in LISTEN, OPEN, WATCH or CUT, its
link is UP and its reverse mapping names the tap, whose link is UP (R62). A change adds serving attempts to a tap, and
changes nothing else, exactly if some eligible port's backlog rose or some port became eligible with backlog 1 or more
(R63; that they are kept as a count is the model's choice, log entry 4).
An urgent request taken for an AUTO port in LISTEN, OPEN, WATCH or CUT sets its backlog to 3, and its confirm mark
where the request carries it; in DOWN it leaves the backlog at 3; any other port keeps its record (R60, R61). -/
def Obligations.AttemptsAndUrgentRequests : Prop :=
  ((∀ (s : State) (t : TapId) (p : Port), s.eligibleOn t p = true ↔
      s.running = true ∧ s.ports[p].mode = .auto ∧ s.ports[p].state ≠ .down ∧ s.ports[p].state ≠ .shut
        ∧ s.ports[p].linkUp = true ∧ (∃ f, s.profile.reverse p = some (t, f)) ∧ (s.taps.get t).linkUp = true)
    ∧ ∀ (x y : State),
        let z := noteAttempts x y
        z = { y with taps := z.taps } ∧ SameButAttempts y.taps.a z.taps.a ∧ SameButAttempts y.taps.b z.taps.b
          ∧ ∀ t : TapId, (y.taps.get t).attempts ≤ (z.taps.get t).attempts
            ∧ ((y.taps.get t).attempts < (z.taps.get t).attempts ↔ ∃ p : Port, y.eligibleOn t p = true
                ∧ (if x.eligibleOn t p = true then x.ports[p].backlog < y.ports[p].backlog
                  else 1 ≤ y.ports[p].backlog)))
    ∧ (∀ (s : State) (p : Port) (confirm : Bool), Running s → (⟨p, confirm⟩ : UrgentReq) ∈ s.urgent →
    let r := s.ports[p]
    let x := if r.mode = .auto ∧ r.state ≠ .down ∧ r.state ≠ .shut then
        { r with backlog := 3, confirm := r.confirm || confirm }
      else if r.mode = .auto ∧ r.state = .down then { r with backlog := 3 }
      else r
    exec (.urgentRequest p confirm) s =
      .next (noteAttempts s { s with urgent := s.urgent.erase ⟨p, confirm⟩, ports := s.ports.set p x }))

/-! ### Flood metering and the tap links -/

/-- The weight of a flood copy is its fabric length, clamped to 64..1522, plus 20, divided by 64 and rounded up: 2 to 25,
one more for each further 64 bytes, 2 for a probe; and FLOOD_UNITS takes it whether the engine is RUNNING or HELD
(R32). -/
def Obligations.WeightsFollowTheFabricLength : Prop :=
  (∀ n : Nat, let l := max 64 (min n 1522)
      64 * (weight n - 1) < l + 20 ∧ l + 20 ≤ 64 * weight n ∧ 2 ≤ weight n ∧ weight n ≤ 25)
    ∧ (∀ n : Nat, 64 ≤ n → n + 64 ≤ 1522 → weight (n + 64) = weight n + 1)
    ∧ weight 16 = 2 ∧ weight 64 = 2 ∧ weight 108 = 2 ∧ weight 109 = 3 ∧ weight 172 = 3 ∧ weight 342 = 6
    ∧ weight 1453 = 24 ∧ weight 1516 = 24 ∧ weight 1517 = 25 ∧ weight 1522 = 25 ∧ weight 16379 = 25
    ∧ ∀ (s : State) (t : TapId) (f : TapFrame) (order : MeterOrder) (p : Port) (i : Fin 4), On s →
        (s.taps.get t).linkUp = true → receiveCheck s.profile t f = .accepted p →
        s.counters[i].kind = .floodUnits → s.counters[i].filter = some p →
        ∃ u, exec (.tapFrame t f order) s = .next u
          ∧ u.counters[i].count = min (s.counters[i].count + weight (f.length - 4)) 4294967295

/-- CLASS is raised against the AUTO port in OPEN or WATCH with the highest level above 0, the lowest index among equals,
with its level at the choosing; with no candidate CLASS_NO_CANDIDATE is handed (R52, R54). -/
def Obligations.TopContributorIsTheHighestCandidate : Prop :=
  ∀ s : State,
    let candidate (p : Port) : Prop := s.ports[p].mode = .auto ∧ (s.ports[p].state = .opened ∨ s.ports[p].state = .watch)
      ∧ 1 ≤ s.ports[p].level
    (∀ p : Port, s.topContributor = some p ↔ candidate p ∧ ∀ q : Port, candidate q →
        s.ports[q].level < s.ports[p].level ∨ (s.ports[q].level = s.ports[p].level ∧ p.val ≤ q.val))
      ∧ (s.topContributor = none ↔ ∀ p : Port, ¬candidate p)
      ∧ s.classChoose = { s with gateReqs := s.gateReqs ++ [classRequest s] }

/-- A frame whole from a tap whose link is UP. A bad FCS or length counts TAP_ERRORS; another tag type or DIRECTED
counts TAG_ERRORS; an unmapped fabric port and an individual destination raise their discard counts, saturating;
nothing else changes then (R18 to R21). A flood copy counts FLOOD_FRAMES and FLOOD_UNITS. While RUNNING its port's
level rises by its weight, saturating, the crossings are handed in ascending order with the level after the arrival and a
mark that no other request has (log entry 3),
the class level rises unless the port is PINNED, with CLASS_WARN at Wc and the class act at Cc, and the frame is
stored if its FIFO has a slot, else counted UNANALYSED with TAP_PRESSURE (R22 to R24, R33, R41 to R45, R48, R50, R51).
With the link DOWN nothing changes. The 96 head bytes of a slot are the frame's with its tag taken out, zeros beyond
its fabric length (R23, R184), the FCS bytes of a short one as received (log entry 37). The order of the two meters is an operand, log entry 10; the
FCS outcome is an operand, log entry 12; the class act judged at each arrival follows the rules against the worked example
of section 3.6, log entry 28. -/
def Obligations.TapFramesAreCheckedMeteredAndStored : Prop :=
  (∀ (s : State) (t : TapId) (f : TapFrame) (order : MeterOrder) (p : Port), On s →
    let x := s.taps.get t
    let b (i : Nat) : Nat := (f.bytes.getD i 0).toNat
    let frameBad : Prop := f.fcsGood = false ∨ f.length < 20 ∨ 16383 < f.length
    let tagBad : Prop := b 12 * 256 + b 13 ≠ s.profile.tapTagType.toNat ∨ 128 ≤ b 14
    let port : FabricPort := ⟨b 15 % 32, Nat.mod_lt _ (by decide)⟩
    let group : Prop := b 0 % 2 = 1
    let passed : Prop := x.linkUp = true ∧ ¬frameBad ∧ ¬tagBad
    let flood : Prop := passed ∧ s.profile.mapFabric t port = some p ∧ group
    let w := weight (f.length - 4)
    let counted := (s.census .floodFrames (some p) 1).census .floodUnits (some p) w
    let r := s.ports[p]
    let m := s.profile.meterOf p
    let level := min (r.level + w) 65535
    let reached (threshold : Nat) : Bool := decide (r.level < threshold ∧ threshold ≤ level)
    let crossings (mark : Nat) : List GateReq :=
      (if r.calm = true ∧ m.r ≤ level then [⟨some p, .rise, some mark⟩]
        else if r.calm = false ∧ level < m.r then [⟨some p, .downward, some mark⟩] else [])
      ++ (if reached m.w then [⟨some p, .watch, some mark⟩] else [])
      ++ (if reached m.c then [⟨some p, .cause .stormCut none (some level) none none, some mark⟩] else [])
      ++ (if reached m.s then [⟨some p, .cause .stormShut none (some level) none none, some mark⟩] else [])
    let metered := s.ports.set p { r with level := level, calm := decide (level < m.r) }
    let class' := if r.mode = .pinned then s.classLevel else min (s.classLevel + w) 1048575
    let warned := decide (r.mode ≠ .pinned ∧ s.classLevel < s.profile.wc ∧ s.profile.wc ≤ class')
    let acts := decide (r.mode ≠ .pinned ∧ s.profile.cc ≤ class' ∧ s.classTimer = none)
    let judged : State := { s with
      classLevel := class'
      ports := match order with
        | .portsFirst => metered
        | .classFirst => s.ports }
    let act := if acts then [classRequest judged] else []
    let full := decide (16 ≤ x.fifo.length)
    let flags := if warned then s.raiseAttached .classWarn else s
    (x.linkUp = false → exec (.tapFrame t f order) s = .next s)
    ∧ (x.linkUp = true → frameBad → exec (.tapFrame t f order) s = .next (s.census .tapErrors none 1))
    ∧ (x.linkUp = true → ¬frameBad → tagBad → exec (.tapFrame t f order) s = .next (s.census .tagErrors none 1))
    ∧ (passed → s.profile.mapFabric t port = none →
        exec (.tapFrame t f order) s = .next { s with taps := s.taps.set t { x with unmapped := min (x.unmapped + 1) 65535 } })
    ∧ (passed → s.profile.mapFabric t port = some p → ¬group →
        exec (.tapFrame t f order) s = .next { s with taps := s.taps.set t { x with nonFlood := min (x.nonFlood + 1) 65535 } })
    ∧ (flood → s.running = false → exec (.tapFrame t f order) s = .next counted)
    ∧ (flood → s.running = true → ∃ mark, (∀ q ∈ s.gateReqs, q.arrival ≠ some mark) ∧ exec (.tapFrame t f order) s = .next { s with
        counters := (if full then counted.census .unanalysed (some p) 1 else counted).counters
        ports := metered
        classLevel := class'
        classTimer := if acts then some s.profile.ti else s.classTimer
        gateReqs := s.gateReqs ++ (match order with
          | .portsFirst => crossings mark ++ act
          | .classFirst => act ++ crossings mark)
        cps := (if full then flags.raiseAttached .tapPressure else flags).cps
        taps := if full then s.taps else
          s.taps.set t { x with fifo := x.fifo ++ [⟨headBytes f, f.length - 4, p, s.msTime⟩] } }))
    ∧ (∀ (f : TapFrame) (i : Nat), TapFrame.wf f = true → 20 ≤ f.length → i < 96 →
    (headBytes f).length = 96
      ∧ (headBytes f).getD i 0 = (if f.length - 4 ≤ i then 0 else if i < 12 then f.bytes.getD i 0 else f.bytes.getD (i + 4) 0))

/-- A tap link that comes UP becomes so, with the attempts its ports' eligibility makes; one that is lost has FIFO and
queue emptied and its sending cut off, keeps its discard counts, and retires every queued probe's list entry unsent: a
port in LISTEN whose listen probe was among them has it absent and backlog 3. TAP_DOWN is set on each attached port.
The other tap and every other entry stay; each entry removed is freed, a serving attempt for each tap (R17, R29, R30, R63,
R75). Serving attempts are counted as log entry 4 has it, and a loss of a link that
is DOWN, like an UP of one that is UP, changes nothing, log entry 31. -/
def Obligations.TapLinkChangesTaken : Prop :=
  ∀ (s : State) (t : TapId), On s →
    let x := s.taps.get t
    exec (.tapLinkUp t) s = .next (
      if x.linkUp then s else noteAttempts s { s with taps := s.taps.set t { x with linkUp := true } })
    ∧ (x.linkUp = false → exec (.tapLinkDown t) s = .next s)
    ∧ (x.linkUp = true → s.listOk → ∃ u, exec (.tapLinkDown t) s = .next u
        ∧ u = { s with taps := u.taps, probes := u.probes, ports := u.ports, cps := (s.raiseAttached .tapDown).cps }
        ∧ SameButAttempts { x with linkUp := false, fifo := [], queue := [], sending := .idle } (u.taps.get t)
        ∧ (∀ t', t' ≠ t → SameButAttempts (s.taps.get t') (u.taps.get t'))
        ∧ (let removed (e : ProbeEntry) : Bool := x.queue.any fun q => !q.entryGone && decide (q.sequence = e.sequence)
           u.probes = s.probes.filter (fun e => !removed e)
            ∧ (∀ t', (s.taps.get t').attempts ≤ (u.taps.get t').attempts
              ∧ ((∃ e ∈ s.probes, removed e = true) → (s.taps.get t').attempts < (u.taps.get t').attempts))
            ∧ ∀ p : Port, u.ports[p] =
                if ∃ e ∈ s.probes, removed e = true ∧ e.egress = p ∧ e.purpose = .listen ∧ s.ports[p].state = .listen
                    ∧ s.ports[p].listenProbe = some e.sequence then
                  { s.ports[p] with listenProbe := none, backlog := 3 }
                else s.ports[p]))

/-! ### The time base and the engine's timers -/

/-- A tick of the time base. It begins (`tickBegins`), unless the class interval expiry has begun it and left the rest
(`tickBegun`). While RUNNING every level drains by its D and the class level by Dc, not below 0; the changes of the calm
marks are handed in ascending port order, and the class meter acts if it is at Cc with no interval running, starting the
timer with all its ticks to come; and one set of the table is swept (R34, R42, R49, R51, R53, R101, R118, R151, R153, R166,
R180). While HELD nothing of the engine moves. The marks that a tick leaves for the rows of its expiries are the model's,
log entry 2; the order of the two drains is an operand, and that an expiry may begin the tick the model's way to take it
first, log entry 10; a save's wait is counted in ticks, log entry 20. -/
def Obligations.MsTickCountsDrainsAndSweeps : Prop :=
  ∀ (s : State) (order : MeterOrder), On s →
    let b : State := if s.tickBegun then { s with tickBegun := false } else tickBegins s
    let level (p : Port) : Nat := s.ports[p].level - (s.profile.meterOf p).d
    let calm (p : Port) : Bool := decide (level p < (s.profile.meterOf p).r)
    let drained (p : Port) : PortRec := { b.ports[p] with level := level p, calm := calm p }
    let crossings : List GateReq := allPorts.filterMap fun p =>
      if s.ports[p].calm = calm p then none else some ⟨some p, if calm p then .downward else .rise, none⟩
    let class' := s.classLevel - s.profile.dc
    let acts := decide (s.profile.cc ≤ class' ∧ s.classTimer = none)
    let judged : State := { s with
      classLevel := class'
      ports := match order with
        | .portsFirst => Vector.ofFn drained
        | .classFirst => s.ports }
    let act := if acts then [classRequest judged] else []
    exec (.msTick order) s = .next (if s.running = false then b else { b with
      classTimer := if acts then some s.profile.ti else b.classTimer
      ports := Vector.ofFn drained
      classLevel := class'
      gateReqs := s.gateReqs ++ (match order with
        | .portsFirst => crossings ++ act
        | .classFirst => act ++ crossings)
      table := s.table.filter fun x =>
        decide (x.1 / 4 ≠ s.sweep.val) || decide ((b.msTime - x.2.firstTime).toNat < s.profile.we)
      sweep := s.sweep + 1 })

/-- The expiries of the block's timers, each of which changes nothing when its timer has not run out (log entry 2).
Tenth tick: running holds and the phase counters count (R118, R126, R167). Slot: the next slot begins and its accruing
ports gain a backlog, up to 3 (R57, R58). Class interval: the class meter acts again if it is at Cc and restarts its timer,
else stops it; taken before the drain of its own tick, with one tick left to count, the expiry begins that tick and leaves
its drains and sweep to MS_TICK, so that whatever starts from then on has all its ticks to come (R53, log entry 10). Decay:
every score above 0 falls by 1 and each one that becomes 0 is handed (R107, R108). Serving attempts are counted as log
entry 4 has it. -/
def Obligations.TimersOfTheBlockExpire : Prop :=
  ∀ (s : State) (order : ExpiryOrder), On s →
    (let holds (p : Port) : PortRec :=
        if s.ports[p].mode = .auto ∧ s.ports[p].state = .shut then { s.ports[p] with hold := s.ports[p].hold - 1 }
        else s.ports[p]
      let phase (i : Fin 4) : Nat :=
        if s.led.phases[i] + 1 < s.profile.leds[i].on + s.profile.leds[i].off then s.led.phases[i] + 1 else 0
      exec .tenthTick s = .next (if s.tenthDue = false then s else { s with
        tenthDue := false
        ports := if s.running then Vector.ofFn holds else s.ports
        led := { s.led with phases := Vector.ofFn phase } }))
    ∧ (let accrued (p : Port) : PortRec :=
        if s.ports[p].mode = .auto ∧ s.ports[p].state ≠ .down ∧ s.ports[p].state ≠ .shut
            ∧ (s.profile.portBytes[p]).slot = s.slotIndex + 1 then
          { s.ports[p] with backlog := min (s.ports[p].backlog + 1) 3 }
        else s.ports[p]
      exec .slotExpiry s = .next (if s.running = true ∧ s.slotTimer = some 0 then
          noteAttempts s { s with
            slotTimer := some s.profile.ts, slotIndex := s.slotIndex + 1, ports := Vector.ofFn accrued }
        else s))
    ∧ (let expired (t : State) : State :=
        if s.profile.cc ≤ s.classLevel then
          { t with gateReqs := s.gateReqs ++ [classRequest s], classTimer := some s.profile.ti }
        else { t with classTimer := none }
      exec (.classIntervalExpiry order) s = .next (match order with
        | .drainFirst => if s.running = true ∧ s.classTimer = some 0 then expired s else s
        | .expiryFirst =>
          if s.running = true ∧ s.tickBegun = false ∧ s.classTimer = some 1 then
            expired { tickBegins s with tickBegun := true }
          else s))
    ∧ exec .decayExpiry s = .next (if s.running = true ∧ s.decayTimer = some 0 then { s with
          decayTimer := some s.profile.td
          ports := Vector.ofFn fun i => { s.ports[i] with echoScore := s.ports[i].echoScore - 1 }
          gateReqs := s.gateReqs ++ allPorts.filterMap fun p =>
            if s.ports[p].echoScore = 1 then some ⟨some p, .echoToZero, none⟩ else none }
        else s)

/-! ### Probe scheduling -/

/-- The arbiter of a tap chooses, of the ports eligible on it with backlog 1 or more, one with the highest backlog,
and of those the first in round-robin order after the last served port, 47 going to 0. The served port becomes the
last served port of its tap alone, and it is 47 for both taps after reset and after an engine restart (R64). That
serving attempts wait as a count is the model's choice, log entry 4. -/
def Obligations.ArbiterServesTheHighestBacklog : Prop :=
  (∀ (s : State) (t : TapId) (p : Port),
      let turn (q : Port) : Nat := (q.val + 47 - (s.taps.get t).lastServed.val) % 48
      let may (q : Port) : Prop := s.eligibleOn t q = true ∧ 1 ≤ s.ports[q].backlog
      (s.arbiter t = some p ↔ may p ∧ ∀ q : Port, may q → s.ports[q].backlog < s.ports[p].backlog
          ∨ (s.ports[q].backlog = s.ports[p].backlog ∧ turn p ≤ turn q))
        ∧ (s.arbiter t = none ↔ ∀ q : Port, ¬may q))
    ∧ (∀ (s u : State) (t : TapId) (p : Port), Running s → 0 < (s.taps.get t).attempts → s.attemptTap t = t →
        s.attemptFinds t = .serve p → exec (.servingAttempt t) s = .next u →
          (u.taps.get t).lastServed = p ∧ ∀ t', t' ≠ t → (u.taps.get t').lastServed = (s.taps.get t').lastServed)
    ∧ State.reset.taps.a.lastServed = 47 ∧ State.reset.taps.b.lastServed = 47
    ∧ ∀ (s u : State) (hold : Byte), exec (.restartEngine .cp0 hold) s = .next u → Listening s .cp0 → hold.toNat < 2 →
        s.store.condition ≠ .loading → u.taps.a.lastServed = 47 ∧ u.taps.b.lastServed = 47

/-- A serving attempt of a tap, or of the tap other than the last served where both contest the last free list entry.
With no port to serve or a full transmit queue it finds nothing; with a full list it is a deferral, counted, and the
first deferred port is kept; else the port is served in one change: an entry and a formed probe with a fresh sequence
number, backlog 0, confirm mark clear, and the listen probe set for a first probe in LISTEN (R63, R65 to R69). That
serving attempts wait as a count is the model's choice, log entry 4. -/
def Obligations.ServingAttemptsServeDeferOrFindNothing : Prop :=
  ∀ (s : State) (t : TapId), On s → s.probes.length ≤ 64 →
    let free (k : TapId) : Prop := s.arbiter k ≠ none ∧ (s.taps.get k).queue.length < 4
    let contest : Prop := s.probes.length = 63 ∧ 0 < s.taps.a.attempts ∧ 0 < s.taps.b.attempts ∧ free .a ∧ free .b
    let spent (k : TapId) : State :=
      { s with taps := s.taps.set k { s.taps.get k with attempts := (s.taps.get k).attempts - 1 } }
    let attempt (k : TapId) (u : State) : Prop :=
      (¬free k → u = spent k)
      ∧ (free k → s.probes.length = 64 → ∀ p : Port, s.arbiter k = some p →
          u = { (spent k).census .probesDeferred (some p) 1 with
            firstDeferred := if s.firstDeferred = none then some p else s.firstDeferred })
      ∧ (free k → s.probes.length < 64 → ∀ p : Port, s.arbiter k = some p →
          ∃ (f : FabricPort) (n : Word16) (skipped : Nat), s.profile.reverse p = some (k, f)
            ∧ n = s.seqCounter + BitVec.ofNat 16 skipped ∧ n ∉ s.probes.map (·.sequence)
            ∧ (∀ j < skipped, s.seqCounter + BitVec.ofNat 16 j ∈ s.probes.map (·.sequence))
            ∧ (let first := decide (s.ports[p].state = .listen ∧ s.ports[p].listenProbe = none)
               u = { s with
                ports := s.ports.set p { s.ports[p] with
                  backlog := 0, confirm := false
                  listenProbe := if first then some n else s.ports[p].listenProbe }
                probes := s.probes ++ [⟨n, p, s.msTime, s.epoch,
                  if first then .listen else if s.ports[p].confirm then .confirm else .routine, .queued, 0, 0⟩]
                taps := s.taps.set k { s.taps.get k with
                  lastServed := p
                  queue := (s.taps.get k).queue ++ [⟨n, p, probeFrame s.profile f
                    (probePayload s.profile.chassisNumber s.runNumber p n (s.msTime.setWidth 16) s.epoch), false⟩] }
                seqCounter := n + 1
                lastTapServed := k }))
    ((s.taps.get t).attempts = 0 → exec (.servingAttempt t) s = .next s)
      ∧ (0 < (s.taps.get t).attempts → ∃ u, exec (.servingAttempt t) s = .next u
          ∧ (¬contest → attempt t u)
          ∧ (contest → s.lastTapServed = .a → attempt .b u) ∧ (contest → s.lastTapServed = .b → attempt .a u))

/-- A transmitter whose link is UP and which sends nothing begins its queue's head. When a probe's last byte has left,
it leaves the queue, its entry becomes SENT, PROBES_SENT is counted on its egress port and a serving attempt for the
tap is pending; a probe that an engine restart took out of the queue is sent to its end and counted, and marks no entry; one
whose entry is gone is sent to its end unmarked and uncounted (R28, R31, R63, R74, R165). The counted attempts and the probe
left on the line are log entries 4 and 22, and a departure with nothing being sent changes nothing, log entry 31. -/
def Obligations.TransmittersSendTheirQueueInOrder : Prop :=
  ∀ (s : State) (t : TapId), On s →
    let x := s.taps.get t
    exec (.probeSendStart t) s = .next (
      if x.linkUp = true ∧ x.sending = .idle ∧ x.queue ≠ [] then { s with taps := s.taps.set t { x with sending := .head } }
      else s)
    ∧ (x.sending = .idle → exec (.probeDeparture t) s = .next s)
    ∧ (∀ q, x.sending = .orphan q → exec (.probeDeparture t) s =
        .next { s with
          taps := s.taps.set t { x with sending := .idle }
          counters := if q.entryGone then s.counters else (s.census .probesSent (some q.egress) 1).counters })
    ∧ (∀ (q : TxProbe) (rest : List TxProbe), x.sending = .head → x.queue = q :: rest →
        let left : State := { s with
          taps := s.taps.set t { x with queue := rest, sending := .idle, attempts := x.attempts + 1 } }
        exec (.probeDeparture t) s = .next (
          if q.entryGone then left
          else { left with
            probes := s.probes.map fun (e : ProbeEntry) =>
              if e.sequence = q.sequence then { e with condition := .sent } else e
            counters := (s.census .probesSent (some q.egress) 1).counters }))

/-- The head entry of the list retires at its life, which frees an entry and makes an attempt pending for each tap. A
SENT one: of a port still in LISTEN whose listen probe it is, with no valid return it hands the listen completion,
with one it has the port probed again; of a LISTEN probe otherwise nothing; of any other, with stale returns only it
makes an urgent request. A QUEUED one leaves its transmit queue unsent, but for one being sent, which goes to its end
with its entry gone (R73 to R76). A head that is not due changes nothing (log entry 2). Serving attempts are counted
as log entry 4 has it. -/
def Obligations.EntriesRetireAtTheirLife : Prop :=
  ∀ (s : State) (e : ProbeEntry) (rest : List ProbeEntry), On s →
    let due : Prop := s.running = true ∧ ∃ lp, s.lifeLimit = some lp ∧ lp ≤ (s.msTime - e.emitted).toNat
    let mine : Prop := e.purpose = .listen ∧ s.ports[e.egress].state = .listen
      ∧ s.ports[e.egress].listenProbe = some e.sequence
    let r := s.ports[e.egress]
    let again := s.ports.set e.egress { r with listenProbe := none, backlog := 3 }
    (s.probes = [] → exec .probeRetireLife s = .next s ∧ exec .queuedEntryLife s = .next s)
    ∧ (s.probes = e :: rest → ¬due ∨ e.condition = .queued → exec .probeRetireLife s = .next s)
    ∧ (s.probes = e :: rest → ¬due ∨ e.condition = .sent → exec .queuedEntryLife s = .next s)
    ∧ (s.probes = e :: rest → due → e.condition = .sent → ∃ u, exec .probeRetireLife s = .next u
        ∧ SameButAttempts s.taps.a u.taps.a ∧ SameButAttempts s.taps.b u.taps.b
        ∧ s.taps.a.attempts < u.taps.a.attempts ∧ s.taps.b.attempts < u.taps.b.attempts
        ∧ u = (let v : State := { s with probes := rest, taps := u.taps }
            if mine ∧ e.valid = 0 then { v with
              ports := s.ports.set e.egress { r with listenProbe := none }
              gateReqs := s.gateReqs ++ [⟨some e.egress, .listenCompletion, none⟩] }
            else if mine then { v with ports := again }
            else if e.purpose ≠ .listen ∧ e.valid = 0 ∧ 0 < e.stale then { v with urgent := s.urgent ++ [⟨e.egress, false⟩] }
            else v))
    ∧ (s.probes = e :: rest → due → e.condition = .queued → ∃ u, exec .queuedEntryLife s = .next u
        ∧ u = { s with probes := rest, taps := u.taps, ports := if mine then again else s.ports }
        ∧ ∀ t : TapId,
            let x := s.taps.get t
            let y := u.taps.get t
            let keep (q : TxProbe) : Bool := decide (q.sequence ≠ e.sequence) || q.entryGone
            x.attempts < y.attempts
              ∧ y = { x with attempts := y.attempts, queue := y.queue }
              ∧ y.queue = (match x.sending, x.queue with
                | .head, q :: qs => (if keep q then q else { q with entryGone := true }) :: qs.filter keep
                | _, qs => qs.filter keep))

/-! ### Probes, returns and verdicts -/

/-- A probe is 64 bytes before its FCS and carries its fields where the formats put them; and the copy of it that a tap
receives when it comes back (another tag in place of its own, any FCS) is recognised as an own probe of its egress port,
with the run number, sequence, emit time and epoch that it left with (R66, R79 to R81, R184). -/
def Obligations.ProbesAreRecognisedWhenTheyReturn : Prop :=
  ∀ (pr : Profile) (f : FabricPort) (p : Port) (run : BitVec 4) (sequence emit epoch : Word16) (tag fcs : List Byte)
    (good : Bool),
    let payload := probePayload pr.chassisNumber run p sequence emit epoch
    let frame := probeFrame pr f payload
    let back : TapFrame := ⟨frame.take 12 ++ tag ++ frame.drop 16 ++ fcs, 68, good⟩
    frame.length = 64
      ∧ beNat (bytesAt frame 0 6) = pr.groupAddress.toNat ∧ beNat (bytesAt frame 6 6) = pr.chassisAddress.toNat
      ∧ beNat (bytesAt frame 12 2) = pr.tapTagType.toNat ∧ bytesAt frame 14 2 = [0x80, BitVec.ofNat 8 f.val]
      ∧ beNat (bytesAt frame 16 2) = pr.probeType.toNat ∧ bytesAt frame 18 12 = payload
      ∧ wordSum (bytesAt frame 18 14) % 65536 = 65535 ∧ bytesAt frame 32 32 = List.replicate 32 0
      ∧ (tag.length = 4 → fcs.length = 4 → TapFrame.wf back = true
        ∧ frameKind pr (headBytes back) = .own p ∧ headRun (headBytes back) = run
        ∧ headSequence (headBytes back) = sequence ∧ headEmit (headBytes back) = emit
        ∧ headEpoch (headBytes back) = epoch)

/-- The free analysis path takes the head frame of the only FIFO that holds one, or of the FIFO it did not take from last,
frees its slot and holds the frame in its working copy until its analysis ends; while it holds one it takes none, and the
next ANALYSIS_TAKE ends the analysis. By the profile of the taking a frame is no probe, a malformed candidate, foreign or an
own probe. At the end a foreign probe is counted on its ingress port and raises FOREIGN on it unless it is PINNED; a
malformed candidate is counted and goes to the echo unit, as every frame does that is no probe; a stale or valid return is
counted, and a valid one hands the verdict of its taking, or the one with its egress port PINNED where that port is PINNED
when the analysis ends (R25, R79 to R82, R85, R86, R92, R94, R96, R139); what it hands is no crossing of an arrival and has
no mark of one (log entry 3). That the one row stands for both moments, and that R139 is read of the mode at the end, is log
entry 8; with nothing to take nothing changes, log entry 31. -/
def Obligations.AnalysisTakesTheFifosInTurn : Prop :=
  ∀ (s : State) (t : TapId) (x : Slot) (rest : List Slot), On s →
    let pr := s.profile
    let h (i : Nat) : Nat := (x.head.getD i 0).toNat
    let word (i : Nat) : Nat := h i * 256 + h (i + 1)
    let candidate : Prop := beNat (bytesAt x.head 0 6) = pr.groupAddress.toNat ∧ word 12 = pr.probeType.toNat
    let sound : Prop := (word 14 + word 16 + word 18 + word 20 + word 22 + word 24 + word 26) % 65536 = 65535 ∧ h 18 / 16 = 1
    let ours : Prop := word 14 * 65536 + word 16 = pr.chassisNumber.toNat
    let u (f : Finding) : State := { s with
      taps := s.taps.set t { s.taps.get t with fifo := rest }, lastTaken := t, analysing := some ⟨x, f⟩ }
    (s.analysing = none → s.taps.a.fifo = [] → s.taps.b.fifo = [] → exec .analysisTake s = .next s)
    ∧ (s.analysing = none → s.running = false → exec .analysisTake s = .next s)
    ∧ (s.analysing = none → s.running = true → (s.taps.get t).fifo = x :: rest →
        (s.lastTaken ≠ t ∨ ∀ t', t' ≠ t → (s.taps.get t').fifo = []) →
        (¬candidate → exec .analysisTake s = .next (u .plain))
        ∧ (candidate → (¬sound ∨ (ours ∧ 48 ≤ h 19)) → exec .analysisTake s = .next (u .malformed))
        ∧ (candidate → sound → ¬ours → exec .analysisTake s = .next (u .foreign))
        ∧ (∀ p : Port, candidate → sound → ours → h 19 = p.val →
            exec .analysisTake s = .next { u (s.judge x p) with probes := (s.noteReturn ⟨x, s.judge x p⟩).probes }))
    ∧ ∀ f : Finding, s.analysing = some ⟨x, f⟩ →
        let v : State := { s with analysing := none }
        exec .analysisTake s = .next (match f with
          | .plain => v.echoEnter x
          | .malformed => (v.census .malformedProbe (some x.ingress) 1).echoEnter x
          | .foreign =>
            let w := v.census .foreignProbes (some x.ingress) 1
            if s.ports[x.ingress].mode = .pinned then w
            else { w with gateReqs := s.gateReqs ++ [⟨some x.ingress, .cause .foreign none none none none, none⟩] }
          | .stale p => v.census .returnsStale (some p) 1
          | .valid p verdict ifPinned =>
            let handed := if s.ports[p].mode = .pinned then ifPinned else verdict
            { v.census .returnsValid (some p) 1 with gateReqs := s.gateReqs ++ [⟨handed.port, handed.kind, none⟩] })

/-- An own probe is judged by the state of its taking: stale if its run number or epoch is not the current one, if its
egress or ingress port has a closing change pending, or if its egress port is DOWN, and valid otherwise (R83, R84). A valid
one has its verdict: SELF_LOOP where it came back on its own port, else LOOP on the port chosen of the ports as they stand
then, with the other as partner, or PINNED_LOOP where none is chosen, with the loop delay and the purpose of its entry; and
beside it the one that it has with its egress port PINNED: against the ingress port, or PINNED_LOOP where that is PINNED too
(R86 to R92, R139). Either is counted, saturating, in the list entry it concerns, and changes nothing else before its
analysis ends (R72, R85). That the entry's count is made at the taking, and the census count at the end, is log entry 8. -/
def Obligations.OwnProbesAreJudged : Prop :=
  ∀ (s : State) (x : Slot) (p : Port), s.listOk →
    let q := x.ingress
    let current := decide (headRun x.head = s.runNumber)
    let closing (r : PortRec) : Prop := r.delivered.rank < r.presented.rank
    let stale := decide (current = false ∨ headEpoch x.head ≠ s.epoch ∨ closing s.ports[p] ∨ closing s.ports[q]
      ∨ s.ports[p].state = .down)
    let concerned (e : ProbeEntry) : Bool := current && decide (e.sequence = headSequence x.head ∧ e.egress = p)
    let delay := s.msTime.setWidth 16 - headEmit x.head
    let purpose := (s.probes.find? concerned).map (·.purpose)
    let verdict (chosen : Option Port) : GateReq :=
      if p = q then ⟨some p, .cause .selfLoop none none (some delay) purpose, none⟩
      else match chosen with
        | none => ⟨some p, .pinnedLoop q, none⟩
        | some c => ⟨some c, .cause .loop (some (if c = p then q else p)) none (some delay) purpose, none⟩
    s.judge x p = (if stale then .stale p
        else .valid p (verdict (s.choosePort p q)) (verdict (if s.ports[q].mode = .pinned then none else some q)))
      ∧ s.noteReturn ⟨x, s.judge x p⟩ = { s with
        probes := s.probes.map fun e =>
          if concerned e then
            { e with
              stale := if stale then min (e.stale + 1) 255 else e.stale
              valid := if stale then e.valid else min (e.valid + 1) 255 }
          else e }

/-- LOOP on two ports is raised against the one that is not PINNED where exactly one is, against none where both are, and
otherwise against the one with the later last link-up time: the one of the smaller age, an absent time before any
present one, and the higher index among equals. A probe from either port into the other chooses the same port (R90). -/
def Obligations.LoopChoosesTheNewestPort : Prop :=
  ∀ (s : State) (p q : Port), p ≠ q →
    let pinned (x : Port) : Prop := s.ports[x].mode = .pinned
    let age (x : Port) : Option Nat := s.ports[x].lastLinkUp.map fun t => (s.msTime - t).toNat
    let later (x y : Port) : Prop := (age x = none ∧ age y ≠ none) ∨ ∃ m n, age x = some m ∧ age y = some n ∧ m < n
    (pinned p → pinned q → s.choosePort p q = none)
      ∧ (pinned p → ¬pinned q → s.choosePort p q = some q)
      ∧ (¬pinned p → pinned q → s.choosePort p q = some p)
      ∧ (¬pinned p → ¬pinned q → (later p q → s.choosePort p q = some p) ∧ (later q p → s.choosePort p q = some q)
          ∧ (age p = age q → s.choosePort p q = some (max p q)))
      ∧ s.choosePort p q = s.choosePort q p

/-! ### Echo detection and the fingerprint table -/

/-- A frame handed to the echo unit. With a live entry of its tag in its set (the first way of them), that entry takes the
later time, one more hit up to 15 and the port; a port not seen before makes echo evidence between the entry's first port
and it, counted under ECHOES; a port seen before makes repeat evidence when the hits become Nr, counted under REPEATS
(by the Nr of that moment alone, though one written higher may then give an entry a second repeat evidence: the model's
choice, log entry 35).
Without one, a new entry with one hit is made at the lowest way that is free or not live, or else, evicting a live entry,
counted, at the way of the greatest age. Every other place of the table stays (R98 to R104).
Evidence on a port that is not PINNED raises its score by 1, up to 15, hands the change from 0, hands an urgent request
with the confirm mark, and raises ECHO with the partner when the score rises to Ne; on a PINNED port it does nothing
(R103, R106, R108, R109). The fingerprint of a frame is the inverse of a register that starts at all ones and takes the 480
bits of its first 60 head bytes, each byte's least significant bit first (R97); that FCS bytes of a frame shorter than 64
bytes are among them is the model's choice, log entry 37. -/
def Obligations.FramesAreEnteredInTheTable : Prop :=
  (∀ (s : State) (x : Slot), s.tableOk →
    let fp := fingerprint x.head
    let q := x.ingress
    let live (e : FpEntry) : Prop := (s.msTime - e.firstTime).toNat < s.profile.we
    let at' (way : Fin 4) : Option FpEntry := placeGet s.table ((fp.toNat % 256) * 4 + way.val)
    let tag : BitVec 24 := (fp >>> 8).setWidth 24
    let matches' (way : Fin 4) (e : FpEntry) : Prop := at' way = some e ∧ live e ∧ e.tag = tag
    let isOpen (way : Fin 4) : Prop := ∀ e, at' way = some e → ¬live e
    let age (way : Fin 4) : Nat := ((at' way).map fun e => (s.msTime - e.firstTime).toNat).getD 0
    let put (way : Fin 4) (e : FpEntry) (t : State) : Prop :=
      placeGet t.table ((fp.toNat % 256) * 4 + way.val) = some e
        ∧ ∀ k, k ≠ (fp.toNat % 256) * 4 + way.val → placeGet t.table k = placeGet s.table k
    let one : FpEntry := ⟨tag, q, x.arrival, x.arrival, 1, 1#48 <<< q.val⟩
    (∀ (way : Fin 4) (e : FpEntry), matches' way e → (∀ v < way, ∀ e', ¬matches' v e') →
      let e' : FpEntry := { e with
        lastTime := if (x.arrival - e.lastTime).toNat < 2 ^ 31 then x.arrival else e.lastTime
        hits := min (e.hits + 1) 15
        seen := e.seen ||| 1#48 <<< q.val }
      let t := s.echoEnter x
      let u := { s with table := t.table }
      put way e' t ∧ tableWf t.table = true
        ∧ (e.hasSeen q = false → t = ((u.evidence e.first (some q)).evidence q (some e.first)).census .echoes (some q) 1)
        ∧ (e.hasSeen q = true → e.hits < 15 → e.hits + 1 = s.profile.nr →
            t = (u.evidence q none).census .repeats (some q) 1)
        ∧ (e.hasSeen q = true → ¬(e.hits < 15 ∧ e.hits + 1 = s.profile.nr) → t = u))
    ∧ ((∀ way e, ¬matches' way e) →
      let t := s.echoEnter x
      tableWf t.table = true
        ∧ (∀ way, isOpen way → (∀ v < way, ¬isOpen v) → put way one t ∧ t = { s with table := t.table })
        ∧ ((∀ way, ¬isOpen way) → ∀ way, (∀ v, age v < age way ∨ (age v = age way ∧ way ≤ v)) →
            put way one t ∧ t = { s.census .evictions (some q) 1 with table := t.table })))
    ∧ (∀ (s : State) (p : Port) (partner : Option Port),
    let old := s.ports[p].echoScore
    let new := min (old + 1) 15
    s.evidence p partner = (if s.ports[p].mode = .pinned then s else { s with
      ports := s.ports.set p { s.ports[p] with echoScore := new }
      gateReqs := s.gateReqs ++ (if old = 0 then [⟨some p, .echoFromZero, none⟩] else [])
        ++ (if old < s.profile.ne ∧ s.profile.ne ≤ new then [⟨some p, .cause .echo partner none none none, none⟩] else [])
      urgent := s.urgent ++ [⟨p, true⟩] }))
    ∧ (∀ head : List Byte, ∃ register : Nat → BitVec 32, register 0 = 0xFFFFFFFF
      ∧ (∀ n < 480, register (n + 1) =
          if (register n).getLsbD 0 = (head.getD (n / 8) 0).getLsbD (n % 8) then register n >>> 1
          else (register n >>> 1) ^^^ 0xEDB88320)
      ∧ fingerprint head = ~~~(register 480))

/-- FIND starts a scan for its target on its control port; the scan's progress takes every entry it passes that is live
and names the target, or for ANY has seen two ports or more; and at the last place the result is held (the count, the
first place and the first eight copies, as each was when the scan came to it), with FIND_DONE on the starting port,
attached or not (R112 to R114). That the scan's progress is a form of the row is log entry 11, and with no scan running its
rows change nothing, log entry 31. -/
def Obligations.FindGathersEveryMatch : Prop :=
  ∀ s : State, On s →
    (∀ (cp : CtlPort) (x : Option Port), (s.cps.get cp).phase = .receiving → (∀ n r, s.find ≠ .scanning n r) →
      exec (.find (.command cp (match x with
          | none => 0xFF
          | some p => BitVec.ofNat 8 p.val))) s =
        .next (ok { s with find := .scanning 0 ⟨x, cp, 0, none, []⟩ } cp))
    ∧ (∀ place : Nat, (∀ n r, s.find ≠ .scanning n r) →
        exec (.find (.scanTo place)) s = .next s ∧ exec .findComplete s = .next s)
    ∧ ∀ (next : Nat) (r : FindResult), s.find = .scanning next r → r.copies.length ≤ 8 → s.tableOk →
        let live (e : FpEntry) : Prop := (s.msTime - e.firstTime).toNat < s.profile.we
        let named (e : FpEntry) : Prop := match r.target with
          | some p => e.hasSeen p = true
          | none => 2 ≤ (allPorts.filter e.hasSeen).length
        let found (upTo : Nat) : List (Nat × FpEntry) := s.table.filter fun x =>
          decide (next ≤ x.1 ∧ x.1 < upTo) && decide (live x.2) && (match r.target with
            | some p => x.2.hasSeen p
            | none => decide (2 ≤ (allPorts.filter x.2.hasSeen).length))
        let gathered (xs : List (Nat × FpEntry)) : FindResult := { r with
          count := r.count + xs.length
          first := match r.first with
            | some k => some k
            | none => xs.head?.map (·.1)
          copies := (r.copies ++ xs).take 8 }
        (∀ upTo k e, (k, e) ∈ found upTo ↔
            next ≤ k ∧ k < upTo ∧ placeGet s.table k = some e ∧ live e ∧ named e)
          ∧ (∀ place : Nat, exec (.find (.scanTo place)) s =
              .next { s with find := .scanning (max next place) (gathered (found place)) })
          ∧ exec .findComplete s = .next { s with
              find := .done (gathered (found 1024))
              cps := s.cps.set r.starter ((s.cps.get r.starter).raise .findDone) }

/-! ### The profile store and start-up -/

/-- A WRITE_PROFILE of one field that is no window. Every value of the profile afterwards: the value written is brought to the
nearest one of its field's range, a mode code of 3 to HELD, an action code above 3 to SHUT, an attachment byte above 1 to
1 (the model's choice, log entry 34), and the group bit is set; a meter field is then clamped with its profile by the three
steps of R38, Cc with Wc, Hmax with Hb; no other field changes (R37, R38, R55, R111, R127 to R129, R151, R160, R167, R171,
R189). Its effects: a new Hmax brings down running holds, a write of We first frees the entries that are not live, an
indicator pattern starts again, and an attachment that changes drops or takes up the cursor of control port 1 (R100, R127,
R160, R167; that a READ_INCIDENTS whose response has not begun is abandoned too is log entry 36); nothing else changes. -/
def Obligations.OneFieldIsWritten : Prop :=
  ∀ (s : State) (i v : Nat) (f : FieldId), Listening s .cp0 → s.store.condition = .ready → fieldOrder[i]? = some f →
    v < 256 ^ f.width → f.isWindow = false → s.profile.ok →
    let pr := s.profile
    let put (g : FieldId) : Nat := if g = f then inRange f v else pr.value g
    ∃ t, exec (.writeProfile .cp0 (BitVec.ofNat 8 i) 1 (beBytes f.width v)) s = .next t
      ∧ t.profile.ok
      ∧ (∀ g : FieldId, t.profile.value g = settled put g)
      ∧ (let capped (p : Port) : PortRec :=
          if s.ports[p].mode = .auto ∧ s.ports[p].state = .shut then
            { s.ports[p] with hold := min s.ports[p].hold t.profile.hmax }
          else s.ports[p]
         let kept := s.table.filter fun x => decide ((s.msTime - x.2.firstTime).toNat < pr.we)
         let turned := decide (f = .cp1Attached ∧ t.profile.cp1Attached ≠ pr.cp1Attached)
         let attached : CtlRec := { s.cps.cp1 with unread := 0, lost := 0 }
         t = ok { s with
          profile := t.profile
          ports := if f = .hmax then Vector.ofFn capped else s.ports
          table := if f = .we then kept else s.table
          led := match f with
            | .ledOn k => { s.led with phases := s.led.phases.set k 0 }
            | .ledOff k => { s.led with phases := s.led.phases.set k 0 }
            | _ => s.led
          cps := if turned then ⟨s.cps.cp0, if pr.cp1Attached then detached s.cps.cp1 else attached⟩ else s.cps
          ring := if turned then s.ring.drop (s.ring.length - s.cps.cp0.unread) else s.ring } .cp0)

/-- A WRITE_PROFILE of one field of a window, the engine HELD. The window is clamped as R10 says; where it would share a
guard port with another enabled window the write is refused OVERLAP and changes nothing; else the map takes it at once,
and the link of every guard port whose reverse mapping changed becomes DOWN (R10, R13, R14, R16). -/
def Obligations.WindowsAreWrittenWhole : Prop :=
  ∀ (s : State) (i : Fin 4) (part : WindowPart) (v : Nat), Listening s .cp0 → s.store.condition = .ready →
    s.running = false → v < 256 →
    let index := 5 + 3 * i.val + (match part with
      | .first => 0
      | .count => 1
      | .guard => 2)
    let old := s.profile.windows[i]
    let first := min (if part = .first then v else old.first) 31
    let guard := min (if part = .guard then v else old.guard) 47
    let count := min (min (if part = .count then v else old.count) 32) (min (32 - first) (48 - guard))
    let shares (w : Window) : Prop := 0 < count ∧ 0 < w.count ∧ guard < w.guard + w.count ∧ w.guard < guard + count
    let pr := { s.profile with windows := s.profile.windows.set i ⟨first, count, guard⟩ }
    let c := Instr.writeProfile .cp0 (BitVec.ofNat 8 index) 1 [BitVec.ofNat 8 v]
    ((∃ j, j ≠ i ∧ shares s.profile.windows[j]) → exec c s = .next (refuse s .cp0 .overlap))
      ∧ ((∀ j, j ≠ i → ¬shares s.profile.windows[j]) → exec c s = .next (ok { s with
          profile := pr
          ports := Vector.ofFn fun p =>
            if s.profile.reverse p = pr.reverse p then s.ports[p] else { s.ports[p] with linkUp := false } } .cp0))

/-- A WRITE_PROFILE of several fields writes them one after another as if each had been written alone, and a window write
refused OVERLAP ends it: the fields before it stay written, those after it are not (R13, R171). -/
def Obligations.RunsAreWrittenFieldByField : Prop :=
  ∀ (s u : State) (start count : Nat) (f : FieldId) (one more : List Byte), Listening s .cp0 →
    s.store.condition = .ready → 2 ≤ count → start + count ≤ 118 → fieldOrder[start]? = some f →
    one.length = f.width → more.length = runWidth (fieldRun (start + 1) (count - 1)) →
    ((fieldRun start count).any FieldId.isWindow = true → s.running = false) →
    exec (.writeProfile .cp0 (BitVec.ofNat 8 start) 1 one) s = .next u →
    exec (.writeProfile .cp0 (BitVec.ofNat 8 start) (BitVec.ofNat 8 count) (one ++ more)) s =
      (if u.cps.cp0.status = some .overlap then .next u
      else exec (.writeProfile .cp0 (BitVec.ofNat 8 (start + 1)) (BitVec.ofNat 8 (count - 1)) more)
        { u with cps := { u.cps with cp0 := { u.cps.cp0 with phase := .receiving } } })

/-- The image that a save forms of a profile in range is LOADED by the next load, which brings back every value of it and
finds no window conflict, whatever profile was in force before (R178, R180, R189). -/
def Obligations.SavedImagesLoadBack : Prop :=
  ∀ pr before : Profile, pr.ok →
    pr.image.length = 256 ∧ wordSum pr.image % 65536 = 65535 ∧ judgeImage pr.image = .loaded
      ∧ before.load pr.image = (pr, false)

/-- The end of the loader's read, once. The load result is ABSENT, BLANK, BAD or LOADED by the bytes acknowledged;
only a LOADED image replaces the profile: each value is the one at its offset in the image, brought into its range and
clamped with its partners, and the windows are taken in order, clamped, and disabled where they share a guard
port with one taken before, which sets the window conflict (R15, R39, R55, R127 to R129, R178, R189; an attachment byte above
1 is log entry 34). The store becomes READY with STORE_STATUS on each port attached before the loaded attachment takes effect,
which is log entry 19; every port takes its profile byte's mode and the state that goes with its link; and the engine is
RUNNING with its timers started and the serving attempts of its ports (R63, R160, R177, R179; the counted attempts are log
entry 4). The operand stands for the memory's bytes, log entry 19, and with the store not LOADING nothing changes, log
entry 31; what a detach does to a READ_INCIDENTS whose response has not begun is log entry 36. -/
def Obligations.LoadEndStartsTheEngine : Prop :=
  ∀ (s : State) (acked : List Byte), On s →
    let b (i : Nat) : Nat := (acked.getD i 0).toNat
    let result : LoadResult :=
      if acked.length < 2 then .absent
      else if b 0 = 255 ∧ b 1 = 255 then .blank
      else if acked.length < 256 then .absent
      else if b 0 = 0x52 ∧ b 1 = 0x44 ∧ b 2 = 1 ∧ b 3 = 0 ∧ wordSum (acked.take 256) % 65536 = 65535 then .loaded
      else .bad
    (s.store.condition ≠ .loading → exec (.loadEnd acked) s = .next s)
    ∧ (s.store.condition = .loading → s.profile.ok → acked.length ≤ 256 → ∃ u, exec (.loadEnd acked) s = .next (start u)
      ∧ (let pr := u.profile
         let clamped (i : Nat) : Window := Window.clamped ⟨b (24 + 3 * i), b (25 + 3 * i), b (26 + 3 * i)⟩
         let clash (i : Fin 4) : Prop := ∃ j : Fin 4, j < i ∧ (clamped i.val).overlaps pr.windows[j] = true
         let image (f : FieldId) : Nat := inRange f (beNat (bytesAt acked (imagePlace f) f.width))
         let moded (p : Port) : PortRec := { s.ports[p] with
          mode := (pr.portBytes[p]).mode
          linkUp := s.ports[p].linkUp && decide (s.profile.reverse p = pr.reverse p) }
         let told := if s.profile.cp1Attached then s.cps.cp1.raise .storeStatus else s.cps.cp1
         u.store = { s.store with condition := .ready, loadResult := result, windowConflict := u.store.windowConflict }
          ∧ pr.ok
          ∧ (result ≠ .loaded → pr = s.profile ∧ u.store.windowConflict = false)
          ∧ (result = .loaded → pr = (s.profile.load acked).1
            ∧ (∀ g : FieldId, g.isWindow = false → pr.value g = settled image g)
            ∧ (u.store.windowConflict = true ↔ ∃ i, clash i)
            ∧ ∀ i : Fin 4, (clash i → pr.windows[i] = { clamped i.val with count := 0 })
              ∧ (¬clash i → pr.windows[i] = clamped i.val))
          ∧ u = { s with
            profile := pr, store := u.store, ports := Vector.ofFn moded
            led := { s.led with phases := Vector.ofFn fun i => if s.profile.leds[i] = pr.leds[i] then s.led.phases[i] else 0 }
            ring := if pr.cp1Attached = s.profile.cp1Attached then s.ring
              else s.ring.drop (s.ring.length - s.cps.cp0.unread)
            cps := ⟨s.cps.cp0.raise .storeStatus,
              if pr.cp1Attached = s.profile.cp1Attached then told
              else if pr.cp1Attached then { told with unread := 0, lost := 0 }
              else detached told⟩ }))

/-- A save from CP0 in READY forms the image, answers OK and writes page 0; each completion acknowledged sends the
next page of 16 bytes, and the sixteenth ends the save SAVED; a byte not acknowledged, or a page not complete 25 ms
after its last byte, ends it SAVE_FAILED. Its end makes the store READY and sets STORE_STATUS on each attached port.
(R180.) When the 25 ms begin is log entry 20; with no save under way, or before the 25 ms, nothing changes, log entries 31
and 20. -/
def Obligations.SavesWriteSixteenPages : Prop :=
  ∀ (s : State) (j : SaveJob),
    let ended (r : SaveResult) : State :=
      { s.raiseAttached .storeStatus with store := { s.store with condition := .ready, saveResult := r, save := none } }
    (Listening s .cp0 → s.store.condition = .ready → exec (.saveProfile .cp0) s = .next (ok { s with
        store := { s.store with condition := .saving, saveResult := .none, save := some ⟨s.profile.image, 0, 0⟩ } } .cp0))
    ∧ (On s → s.store.save = none → exec .savePageDone s = .next s ∧ exec .savePageTimeout s = .next s
        ∧ exec .saveNack s = .next s)
    ∧ (On s → s.store.save = some j →
        exec .savePageDone s = .next (
          if j.page < 15 then { s with store := { s.store with save := some ⟨j.image, j.page + 1, 0⟩ } } else ended .saved)
        ∧ exec .savePageTimeout s = .next (if 25 ≤ j.waited then ended .failed else s)
        ∧ exec .saveNack s = .next (ended .failed))
    ∧ (j.image.length = 256 →
        (List.range 16).flatMap (fun k => SaveJob.pageBytes { j with page := k }) = j.image
          ∧ ∀ k < 16, (SaveJob.pageBytes { j with page := k }).length = 16)

/-- RESTART_ENGINE from CP0 clears the engine (ports but for what R2 keeps, FIFOs, transmit queues, class meter,
slots, probe list, fingerprint table, requests), steps the run number, sets the epoch to 0 and the hold owner to NONE,
abandons the frame under analysis, aborts a scan with FIND_DONE, keeps everything else, and leaves the engine HELD with the hold flag; without it the
engine then starts at once. RELEASE_ENGINE starts a HELD engine and leaves a RUNNING one (R2, R26, R31, R77, R116,
R141, R149, R174, R179, R181, R182). The probe left on the line, the counted attempts, and that the urgent requests not yet
taken are discarded are log entries 22, 4 and 32. -/
def Obligations.EngineIsRestartedAndReleased : Prop :=
  ∀ s : State, Listening s .cp0 → s.store.condition ≠ .loading →
    (∃ u, exec (.restartEngine .cp0 1) s = .next (ok u .cp0)
      ∧ exec (.restartEngine .cp0 0) s = .next (ok (start u) .cp0)
      ∧ u = { s with
        running := false, ports := u.ports, taps := u.taps, lastTaken := .b, analysing := none, classLevel := 0, classTimer := none
        slotTimer := none, slotIndex := 0, lastTapServed := .b, firstDeferred := none, runNumber := s.runNumber + 1
        probes := [], lifeLimit := none, urgent := [], table := [], decayTimer := none, sweep := 0, gateReqs := []
        epoch := 0, holdOwner := none, find := u.find, cps := u.cps }
      ∧ (∀ p : Port, u.ports[p] = { s.ports[p] with
          state := match s.ports[p].mode with
            | .auto => .down
            | .pinned => if s.ports[p].linkUp then .opened else .down
            | .held => .shut
          level := 0, calm := true, backlog := if s.ports[p].mode = .auto then 3 else 0, confirm := false
          listenProbe := none, echoScore := 0, penalty := 0, hold := 0
          listenTimer := ⟨false, 0, false⟩, releaseTimer := ⟨false, 0, false⟩, goodTimer := ⟨false, 0, false⟩ })
      ∧ (∀ t : TapId, u.taps.get t = { s.taps.get t with
          fifo := [], queue := [], lastServed := 47, attempts := 0, sending := (u.taps.get t).sending }
        ∧ ((s.taps.get t).sending ≠ .head → (u.taps.get t).sending = (s.taps.get t).sending)
        ∧ ∀ q rest, (s.taps.get t).sending = .head → (s.taps.get t).queue = q :: rest →
            (u.taps.get t).sending = .orphan q)
      ∧ (∀ n r, s.find = .scanning n r → u.find = .aborted r.target r.starter
          ∧ u.cps = s.cps.set r.starter ((s.cps.get r.starter).raise .findDone))
      ∧ ((∀ n r, s.find ≠ .scanning n r) → u.find = s.find ∧ u.cps = s.cps))
    ∧ exec (.releaseEngine .cp0) s = .next (ok (if s.running then s else start s) .cp0)

/-! ### What every step keeps -/

/-- The part is in order after reset. -/
def Obligations.ResetIsInOrder : Prop := State.reset.ok

/-- The port table stays in order: mode and state a pair that R4 allows, backlog and marks as R59 and R61 say, each timer
stopped at 0 outside its own state, the hold 0 outside AUTO SHUT and at most Hmax, numbers within their ranges, and AUTO
ports DOWN while the engine is HELD (R2 to R4, R59, R61, R127, R141). -/
def Obligations.PortTableStaysInOrder : Prop :=
  ∀ s t : State, s.portsOk → step s = .next t → t.portsOk

/-- Every value of the profile stays in its range, the clamps between values hold, and no two enabled windows share a
guard port (R10, R14, R38, R55, R127, R171, R189). -/
def Obligations.ProfileStaysInRange : Prop :=
  ∀ s t : State, s.profile.ok → step s = .next t → t.profile.ok

/-- The incident ring stays in order: at most 32 records, numbered without a gap up to the newest, exactly those the
attached port furthest back has not read, and no trace of the ring on a detached control port (R154 to R157, R160). -/
def Obligations.IncidentRingStaysInOrder : Prop :=
  ∀ s t : State, s.ringOk → step s = .next t → t.ringOk

/-- The probe list, the taps, the fingerprint table, the HELD engine and the counts each stay in order: at most 64 entries
with no sequence number twice (R69, R71); FIFOs and queues within their places and empty on a lost link, a frame under analysis with its 96 head bytes (R17, R23,
R25, R27);
the table in its canonical form with 1 to 15 hits an entry (R99); nothing of a HELD engine waiting to act (R141, R179,
R181); counts within their widths (R48, R153, R165). -/
def Obligations.EngineStaysInOrder : Prop :=
  ∀ s t : State, step s = .next t →
    (s.listOk → t.listOk) ∧ (s.tapsOk → t.tapsOk) ∧ (s.tableOk → t.tableOk) ∧ (s.heldOk → t.heldOk)
      ∧ (s.countsOk → t.countsOk)
end

