-- ==== Sys2Proof/Laws/State.lean ====
section
/-! SUPPORT. One lemma per field per update of the state: no proof has to unfold a record update. -/

namespace Sys2Proof.Machine

/-! ### Pairs keyed by tap or by control port -/

@[simp] theorem PerTap.get_set_self {α : Type} (x : PerTap α) (t : TapId) (v : α) : (x.set t v).get t = v := by
  cases t <;> rfl

theorem PerTap.get_set_of_ne {α : Type} (x : PerTap α) {t t' : TapId} (h : t' ≠ t) (v : α) :
    (x.set t v).get t' = x.get t' := by
  cases t <;> cases t' <;> first | rfl | exact absurd rfl h

@[simp] theorem PerTap.set_get_self {α : Type} (x : PerTap α) (t : TapId) : x.set t (x.get t) = x := by
  cases t <;> rfl

@[simp] theorem PerTap.set_set {α : Type} (x : PerTap α) (t : TapId) (v w : α) : (x.set t v).set t w = x.set t w := by
  cases t <;> rfl

@[simp] theorem PerCp.get_set_self {α : Type} (x : PerCp α) (c : CtlPort) (v : α) : (x.set c v).get c = v := by
  cases c <;> rfl

theorem PerCp.get_set_of_ne {α : Type} (x : PerCp α) {c c' : CtlPort} (h : c' ≠ c) (v : α) :
    (x.set c v).get c' = x.get c' := by
  cases c <;> cases c' <;> first | rfl | exact absurd rfl h

@[simp] theorem PerCp.set_get_self {α : Type} (x : PerCp α) (c : CtlPort) : x.set c (x.get c) = x := by
  cases c <;> rfl

@[simp] theorem PerCp.set_set {α : Type} (x : PerCp α) (c : CtlPort) (v w : α) : (x.set c v).set c w = x.set c w := by
  cases c <;> rfl

/-! ### One port record -/

/-- The record of the port that was changed. -/
theorem State.updPort_self (s : State) (p : Port) (f : PortRec → PortRec) : (s.updPort p f).ports[p] = f s.ports[p] := by
  simp [State.updPort]

/-- The record of every other port. -/
theorem State.updPort_other (s : State) {p q : Port} (h : q ≠ p) (f : PortRec → PortRec) :
    (s.updPort p f).ports[q] = s.ports[q] := by
  have hv : p.val ≠ q.val := fun e => h (Fin.ext e.symm)
  simp [State.updPort, Vector.getElem_set_ne, hv]

/-! ### `State.updPort` -/

@[simp] theorem State.updPort_resetLow (s : State) (p : Port) (f : PortRec → PortRec) : (s.updPort p f).resetLow = s.resetLow := rfl

@[simp] theorem State.updPort_msTime (s : State) (p : Port) (f : PortRec → PortRec) : (s.updPort p f).msTime = s.msTime := rfl

@[simp] theorem State.updPort_tenthDue (s : State) (p : Port) (f : PortRec → PortRec) : (s.updPort p f).tenthDue = s.tenthDue := rfl

@[simp] theorem State.updPort_tickBegun (s : State) (p : Port) (f : PortRec → PortRec) : (s.updPort p f).tickBegun = s.tickBegun := rfl

@[simp] theorem State.updPort_running (s : State) (p : Port) (f : PortRec → PortRec) : (s.updPort p f).running = s.running := rfl

@[simp] theorem State.updPort_unitNumber (s : State) (p : Port) (f : PortRec → PortRec) : (s.updPort p f).unitNumber = s.unitNumber := rfl

@[simp] theorem State.updPort_profile (s : State) (p : Port) (f : PortRec → PortRec) : (s.updPort p f).profile = s.profile := rfl

@[simp] theorem State.updPort_store (s : State) (p : Port) (f : PortRec → PortRec) : (s.updPort p f).store = s.store := rfl

@[simp] theorem State.updPort_ports (s : State) (p : Port) (f : PortRec → PortRec) :
    (s.updPort p f).ports = s.ports.set p (f s.ports[p]) := rfl

@[simp] theorem State.updPort_taps (s : State) (p : Port) (f : PortRec → PortRec) : (s.updPort p f).taps = s.taps := rfl

@[simp] theorem State.updPort_lastTaken (s : State) (p : Port) (f : PortRec → PortRec) : (s.updPort p f).lastTaken = s.lastTaken := rfl

@[simp] theorem State.updPort_analysing (s : State) (p : Port) (f : PortRec → PortRec) : (s.updPort p f).analysing = s.analysing := rfl

@[simp] theorem State.updPort_classLevel (s : State) (p : Port) (f : PortRec → PortRec) : (s.updPort p f).classLevel = s.classLevel := rfl

@[simp] theorem State.updPort_classTimer (s : State) (p : Port) (f : PortRec → PortRec) : (s.updPort p f).classTimer = s.classTimer := rfl

@[simp] theorem State.updPort_slotTimer (s : State) (p : Port) (f : PortRec → PortRec) : (s.updPort p f).slotTimer = s.slotTimer := rfl

@[simp] theorem State.updPort_slotIndex (s : State) (p : Port) (f : PortRec → PortRec) : (s.updPort p f).slotIndex = s.slotIndex := rfl

@[simp] theorem State.updPort_lastTapServed (s : State) (p : Port) (f : PortRec → PortRec) : (s.updPort p f).lastTapServed = s.lastTapServed := rfl

@[simp] theorem State.updPort_firstDeferred (s : State) (p : Port) (f : PortRec → PortRec) : (s.updPort p f).firstDeferred = s.firstDeferred := rfl

@[simp] theorem State.updPort_seqCounter (s : State) (p : Port) (f : PortRec → PortRec) : (s.updPort p f).seqCounter = s.seqCounter := rfl

@[simp] theorem State.updPort_runNumber (s : State) (p : Port) (f : PortRec → PortRec) : (s.updPort p f).runNumber = s.runNumber := rfl

@[simp] theorem State.updPort_probes (s : State) (p : Port) (f : PortRec → PortRec) : (s.updPort p f).probes = s.probes := rfl

@[simp] theorem State.updPort_lifeLimit (s : State) (p : Port) (f : PortRec → PortRec) : (s.updPort p f).lifeLimit = s.lifeLimit := rfl

@[simp] theorem State.updPort_urgent (s : State) (p : Port) (f : PortRec → PortRec) : (s.updPort p f).urgent = s.urgent := rfl

@[simp] theorem State.updPort_table (s : State) (p : Port) (f : PortRec → PortRec) : (s.updPort p f).table = s.table := rfl

@[simp] theorem State.updPort_decayTimer (s : State) (p : Port) (f : PortRec → PortRec) : (s.updPort p f).decayTimer = s.decayTimer := rfl

@[simp] theorem State.updPort_sweep (s : State) (p : Port) (f : PortRec → PortRec) : (s.updPort p f).sweep = s.sweep := rfl

@[simp] theorem State.updPort_find (s : State) (p : Port) (f : PortRec → PortRec) : (s.updPort p f).find = s.find := rfl

@[simp] theorem State.updPort_gateReqs (s : State) (p : Port) (f : PortRec → PortRec) : (s.updPort p f).gateReqs = s.gateReqs := rfl

@[simp] theorem State.updPort_polls (s : State) (p : Port) (f : PortRec → PortRec) : (s.updPort p f).polls = s.polls := rfl

@[simp] theorem State.updPort_epoch (s : State) (p : Port) (f : PortRec → PortRec) : (s.updPort p f).epoch = s.epoch := rfl

@[simp] theorem State.updPort_ring (s : State) (p : Port) (f : PortRec → PortRec) : (s.updPort p f).ring = s.ring := rfl

@[simp] theorem State.updPort_nextNumber (s : State) (p : Port) (f : PortRec → PortRec) : (s.updPort p f).nextNumber = s.nextNumber := rfl

@[simp] theorem State.updPort_counters (s : State) (p : Port) (f : PortRec → PortRec) : (s.updPort p f).counters = s.counters := rfl

@[simp] theorem State.updPort_led (s : State) (p : Port) (f : PortRec → PortRec) : (s.updPort p f).led = s.led := rfl

@[simp] theorem State.updPort_cps (s : State) (p : Port) (f : PortRec → PortRec) : (s.updPort p f).cps = s.cps := rfl

@[simp] theorem State.updPort_holdOwner (s : State) (p : Port) (f : PortRec → PortRec) : (s.updPort p f).holdOwner = s.holdOwner := rfl

@[simp] theorem State.updPort_pending (s : State) (p : Port) (f : PortRec → PortRec) : (s.updPort p f).pending = s.pending := rfl

/-! ### `State.updTap` -/

@[simp] theorem State.updTap_resetLow (s : State) (t : TapId) (f : TapRec → TapRec) : (s.updTap t f).resetLow = s.resetLow := rfl

@[simp] theorem State.updTap_msTime (s : State) (t : TapId) (f : TapRec → TapRec) : (s.updTap t f).msTime = s.msTime := rfl

@[simp] theorem State.updTap_tenthDue (s : State) (t : TapId) (f : TapRec → TapRec) : (s.updTap t f).tenthDue = s.tenthDue := rfl

@[simp] theorem State.updTap_tickBegun (s : State) (t : TapId) (f : TapRec → TapRec) : (s.updTap t f).tickBegun = s.tickBegun := rfl

@[simp] theorem State.updTap_running (s : State) (t : TapId) (f : TapRec → TapRec) : (s.updTap t f).running = s.running := rfl

@[simp] theorem State.updTap_unitNumber (s : State) (t : TapId) (f : TapRec → TapRec) : (s.updTap t f).unitNumber = s.unitNumber := rfl

@[simp] theorem State.updTap_profile (s : State) (t : TapId) (f : TapRec → TapRec) : (s.updTap t f).profile = s.profile := rfl

@[simp] theorem State.updTap_store (s : State) (t : TapId) (f : TapRec → TapRec) : (s.updTap t f).store = s.store := rfl

@[simp] theorem State.updTap_ports (s : State) (t : TapId) (f : TapRec → TapRec) : (s.updTap t f).ports = s.ports := rfl

@[simp] theorem State.updTap_taps (s : State) (t : TapId) (f : TapRec → TapRec) :
    (s.updTap t f).taps = s.taps.set t (f (s.taps.get t)) := rfl

@[simp] theorem State.updTap_lastTaken (s : State) (t : TapId) (f : TapRec → TapRec) : (s.updTap t f).lastTaken = s.lastTaken := rfl

@[simp] theorem State.updTap_analysing (s : State) (t : TapId) (f : TapRec → TapRec) : (s.updTap t f).analysing = s.analysing := rfl

@[simp] theorem State.updTap_classLevel (s : State) (t : TapId) (f : TapRec → TapRec) : (s.updTap t f).classLevel = s.classLevel := rfl

@[simp] theorem State.updTap_classTimer (s : State) (t : TapId) (f : TapRec → TapRec) : (s.updTap t f).classTimer = s.classTimer := rfl

@[simp] theorem State.updTap_slotTimer (s : State) (t : TapId) (f : TapRec → TapRec) : (s.updTap t f).slotTimer = s.slotTimer := rfl

@[simp] theorem State.updTap_slotIndex (s : State) (t : TapId) (f : TapRec → TapRec) : (s.updTap t f).slotIndex = s.slotIndex := rfl

@[simp] theorem State.updTap_lastTapServed (s : State) (t : TapId) (f : TapRec → TapRec) : (s.updTap t f).lastTapServed = s.lastTapServed := rfl

@[simp] theorem State.updTap_firstDeferred (s : State) (t : TapId) (f : TapRec → TapRec) : (s.updTap t f).firstDeferred = s.firstDeferred := rfl

@[simp] theorem State.updTap_seqCounter (s : State) (t : TapId) (f : TapRec → TapRec) : (s.updTap t f).seqCounter = s.seqCounter := rfl

@[simp] theorem State.updTap_runNumber (s : State) (t : TapId) (f : TapRec → TapRec) : (s.updTap t f).runNumber = s.runNumber := rfl

@[simp] theorem State.updTap_probes (s : State) (t : TapId) (f : TapRec → TapRec) : (s.updTap t f).probes = s.probes := rfl

@[simp] theorem State.updTap_lifeLimit (s : State) (t : TapId) (f : TapRec → TapRec) : (s.updTap t f).lifeLimit = s.lifeLimit := rfl

@[simp] theorem State.updTap_urgent (s : State) (t : TapId) (f : TapRec → TapRec) : (s.updTap t f).urgent = s.urgent := rfl

@[simp] theorem State.updTap_table (s : State) (t : TapId) (f : TapRec → TapRec) : (s.updTap t f).table = s.table := rfl

@[simp] theorem State.updTap_decayTimer (s : State) (t : TapId) (f : TapRec → TapRec) : (s.updTap t f).decayTimer = s.decayTimer := rfl

@[simp] theorem State.updTap_sweep (s : State) (t : TapId) (f : TapRec → TapRec) : (s.updTap t f).sweep = s.sweep := rfl

@[simp] theorem State.updTap_find (s : State) (t : TapId) (f : TapRec → TapRec) : (s.updTap t f).find = s.find := rfl

@[simp] theorem State.updTap_gateReqs (s : State) (t : TapId) (f : TapRec → TapRec) : (s.updTap t f).gateReqs = s.gateReqs := rfl

@[simp] theorem State.updTap_polls (s : State) (t : TapId) (f : TapRec → TapRec) : (s.updTap t f).polls = s.polls := rfl

@[simp] theorem State.updTap_epoch (s : State) (t : TapId) (f : TapRec → TapRec) : (s.updTap t f).epoch = s.epoch := rfl

@[simp] theorem State.updTap_ring (s : State) (t : TapId) (f : TapRec → TapRec) : (s.updTap t f).ring = s.ring := rfl

@[simp] theorem State.updTap_nextNumber (s : State) (t : TapId) (f : TapRec → TapRec) : (s.updTap t f).nextNumber = s.nextNumber := rfl

@[simp] theorem State.updTap_counters (s : State) (t : TapId) (f : TapRec → TapRec) : (s.updTap t f).counters = s.counters := rfl

@[simp] theorem State.updTap_led (s : State) (t : TapId) (f : TapRec → TapRec) : (s.updTap t f).led = s.led := rfl

@[simp] theorem State.updTap_cps (s : State) (t : TapId) (f : TapRec → TapRec) : (s.updTap t f).cps = s.cps := rfl

@[simp] theorem State.updTap_holdOwner (s : State) (t : TapId) (f : TapRec → TapRec) : (s.updTap t f).holdOwner = s.holdOwner := rfl

@[simp] theorem State.updTap_pending (s : State) (t : TapId) (f : TapRec → TapRec) : (s.updTap t f).pending = s.pending := rfl

/-! ### `State.updPoll` -/

@[simp] theorem State.updPoll_resetLow (s : State) (l : TapId) (f : PollRec → PollRec) : (s.updPoll l f).resetLow = s.resetLow := rfl

@[simp] theorem State.updPoll_msTime (s : State) (l : TapId) (f : PollRec → PollRec) : (s.updPoll l f).msTime = s.msTime := rfl

@[simp] theorem State.updPoll_tenthDue (s : State) (l : TapId) (f : PollRec → PollRec) : (s.updPoll l f).tenthDue = s.tenthDue := rfl

@[simp] theorem State.updPoll_tickBegun (s : State) (l : TapId) (f : PollRec → PollRec) : (s.updPoll l f).tickBegun = s.tickBegun := rfl

@[simp] theorem State.updPoll_running (s : State) (l : TapId) (f : PollRec → PollRec) : (s.updPoll l f).running = s.running := rfl

@[simp] theorem State.updPoll_unitNumber (s : State) (l : TapId) (f : PollRec → PollRec) : (s.updPoll l f).unitNumber = s.unitNumber := rfl

@[simp] theorem State.updPoll_profile (s : State) (l : TapId) (f : PollRec → PollRec) : (s.updPoll l f).profile = s.profile := rfl

@[simp] theorem State.updPoll_store (s : State) (l : TapId) (f : PollRec → PollRec) : (s.updPoll l f).store = s.store := rfl

@[simp] theorem State.updPoll_ports (s : State) (l : TapId) (f : PollRec → PollRec) : (s.updPoll l f).ports = s.ports := rfl

@[simp] theorem State.updPoll_taps (s : State) (l : TapId) (f : PollRec → PollRec) : (s.updPoll l f).taps = s.taps := rfl

@[simp] theorem State.updPoll_lastTaken (s : State) (l : TapId) (f : PollRec → PollRec) : (s.updPoll l f).lastTaken = s.lastTaken := rfl

@[simp] theorem State.updPoll_analysing (s : State) (l : TapId) (f : PollRec → PollRec) : (s.updPoll l f).analysing = s.analysing := rfl

@[simp] theorem State.updPoll_classLevel (s : State) (l : TapId) (f : PollRec → PollRec) : (s.updPoll l f).classLevel = s.classLevel := rfl

@[simp] theorem State.updPoll_classTimer (s : State) (l : TapId) (f : PollRec → PollRec) : (s.updPoll l f).classTimer = s.classTimer := rfl

@[simp] theorem State.updPoll_slotTimer (s : State) (l : TapId) (f : PollRec → PollRec) : (s.updPoll l f).slotTimer = s.slotTimer := rfl

@[simp] theorem State.updPoll_slotIndex (s : State) (l : TapId) (f : PollRec → PollRec) : (s.updPoll l f).slotIndex = s.slotIndex := rfl

@[simp] theorem State.updPoll_lastTapServed (s : State) (l : TapId) (f : PollRec → PollRec) : (s.updPoll l f).lastTapServed = s.lastTapServed := rfl

@[simp] theorem State.updPoll_firstDeferred (s : State) (l : TapId) (f : PollRec → PollRec) : (s.updPoll l f).firstDeferred = s.firstDeferred := rfl

@[simp] theorem State.updPoll_seqCounter (s : State) (l : TapId) (f : PollRec → PollRec) : (s.updPoll l f).seqCounter = s.seqCounter := rfl

@[simp] theorem State.updPoll_runNumber (s : State) (l : TapId) (f : PollRec → PollRec) : (s.updPoll l f).runNumber = s.runNumber := rfl

@[simp] theorem State.updPoll_probes (s : State) (l : TapId) (f : PollRec → PollRec) : (s.updPoll l f).probes = s.probes := rfl

@[simp] theorem State.updPoll_lifeLimit (s : State) (l : TapId) (f : PollRec → PollRec) : (s.updPoll l f).lifeLimit = s.lifeLimit := rfl

@[simp] theorem State.updPoll_urgent (s : State) (l : TapId) (f : PollRec → PollRec) : (s.updPoll l f).urgent = s.urgent := rfl

@[simp] theorem State.updPoll_table (s : State) (l : TapId) (f : PollRec → PollRec) : (s.updPoll l f).table = s.table := rfl

@[simp] theorem State.updPoll_decayTimer (s : State) (l : TapId) (f : PollRec → PollRec) : (s.updPoll l f).decayTimer = s.decayTimer := rfl

@[simp] theorem State.updPoll_sweep (s : State) (l : TapId) (f : PollRec → PollRec) : (s.updPoll l f).sweep = s.sweep := rfl

@[simp] theorem State.updPoll_find (s : State) (l : TapId) (f : PollRec → PollRec) : (s.updPoll l f).find = s.find := rfl

@[simp] theorem State.updPoll_gateReqs (s : State) (l : TapId) (f : PollRec → PollRec) : (s.updPoll l f).gateReqs = s.gateReqs := rfl

@[simp] theorem State.updPoll_polls (s : State) (l : TapId) (f : PollRec → PollRec) :
    (s.updPoll l f).polls = s.polls.set l (f (s.polls.get l)) := rfl

@[simp] theorem State.updPoll_epoch (s : State) (l : TapId) (f : PollRec → PollRec) : (s.updPoll l f).epoch = s.epoch := rfl

@[simp] theorem State.updPoll_ring (s : State) (l : TapId) (f : PollRec → PollRec) : (s.updPoll l f).ring = s.ring := rfl

@[simp] theorem State.updPoll_nextNumber (s : State) (l : TapId) (f : PollRec → PollRec) : (s.updPoll l f).nextNumber = s.nextNumber := rfl

@[simp] theorem State.updPoll_counters (s : State) (l : TapId) (f : PollRec → PollRec) : (s.updPoll l f).counters = s.counters := rfl

@[simp] theorem State.updPoll_led (s : State) (l : TapId) (f : PollRec → PollRec) : (s.updPoll l f).led = s.led := rfl

@[simp] theorem State.updPoll_cps (s : State) (l : TapId) (f : PollRec → PollRec) : (s.updPoll l f).cps = s.cps := rfl

@[simp] theorem State.updPoll_holdOwner (s : State) (l : TapId) (f : PollRec → PollRec) : (s.updPoll l f).holdOwner = s.holdOwner := rfl

@[simp] theorem State.updPoll_pending (s : State) (l : TapId) (f : PollRec → PollRec) : (s.updPoll l f).pending = s.pending := rfl

/-! ### `State.updCtl` -/

@[simp] theorem State.updCtl_resetLow (s : State) (cp : CtlPort) (f : CtlRec → CtlRec) : (s.updCtl cp f).resetLow = s.resetLow := rfl

@[simp] theorem State.updCtl_msTime (s : State) (cp : CtlPort) (f : CtlRec → CtlRec) : (s.updCtl cp f).msTime = s.msTime := rfl

@[simp] theorem State.updCtl_tenthDue (s : State) (cp : CtlPort) (f : CtlRec → CtlRec) : (s.updCtl cp f).tenthDue = s.tenthDue := rfl

@[simp] theorem State.updCtl_tickBegun (s : State) (cp : CtlPort) (f : CtlRec → CtlRec) : (s.updCtl cp f).tickBegun = s.tickBegun := rfl

@[simp] theorem State.updCtl_running (s : State) (cp : CtlPort) (f : CtlRec → CtlRec) : (s.updCtl cp f).running = s.running := rfl

@[simp] theorem State.updCtl_unitNumber (s : State) (cp : CtlPort) (f : CtlRec → CtlRec) : (s.updCtl cp f).unitNumber = s.unitNumber := rfl

@[simp] theorem State.updCtl_profile (s : State) (cp : CtlPort) (f : CtlRec → CtlRec) : (s.updCtl cp f).profile = s.profile := rfl

@[simp] theorem State.updCtl_store (s : State) (cp : CtlPort) (f : CtlRec → CtlRec) : (s.updCtl cp f).store = s.store := rfl

@[simp] theorem State.updCtl_ports (s : State) (cp : CtlPort) (f : CtlRec → CtlRec) : (s.updCtl cp f).ports = s.ports := rfl

@[simp] theorem State.updCtl_taps (s : State) (cp : CtlPort) (f : CtlRec → CtlRec) : (s.updCtl cp f).taps = s.taps := rfl

@[simp] theorem State.updCtl_lastTaken (s : State) (cp : CtlPort) (f : CtlRec → CtlRec) : (s.updCtl cp f).lastTaken = s.lastTaken := rfl

@[simp] theorem State.updCtl_analysing (s : State) (cp : CtlPort) (f : CtlRec → CtlRec) : (s.updCtl cp f).analysing = s.analysing := rfl

@[simp] theorem State.updCtl_classLevel (s : State) (cp : CtlPort) (f : CtlRec → CtlRec) : (s.updCtl cp f).classLevel = s.classLevel := rfl

@[simp] theorem State.updCtl_classTimer (s : State) (cp : CtlPort) (f : CtlRec → CtlRec) : (s.updCtl cp f).classTimer = s.classTimer := rfl

@[simp] theorem State.updCtl_slotTimer (s : State) (cp : CtlPort) (f : CtlRec → CtlRec) : (s.updCtl cp f).slotTimer = s.slotTimer := rfl

@[simp] theorem State.updCtl_slotIndex (s : State) (cp : CtlPort) (f : CtlRec → CtlRec) : (s.updCtl cp f).slotIndex = s.slotIndex := rfl

@[simp] theorem State.updCtl_lastTapServed (s : State) (cp : CtlPort) (f : CtlRec → CtlRec) : (s.updCtl cp f).lastTapServed = s.lastTapServed := rfl

@[simp] theorem State.updCtl_firstDeferred (s : State) (cp : CtlPort) (f : CtlRec → CtlRec) : (s.updCtl cp f).firstDeferred = s.firstDeferred := rfl

@[simp] theorem State.updCtl_seqCounter (s : State) (cp : CtlPort) (f : CtlRec → CtlRec) : (s.updCtl cp f).seqCounter = s.seqCounter := rfl

@[simp] theorem State.updCtl_runNumber (s : State) (cp : CtlPort) (f : CtlRec → CtlRec) : (s.updCtl cp f).runNumber = s.runNumber := rfl

@[simp] theorem State.updCtl_probes (s : State) (cp : CtlPort) (f : CtlRec → CtlRec) : (s.updCtl cp f).probes = s.probes := rfl

@[simp] theorem State.updCtl_lifeLimit (s : State) (cp : CtlPort) (f : CtlRec → CtlRec) : (s.updCtl cp f).lifeLimit = s.lifeLimit := rfl

@[simp] theorem State.updCtl_urgent (s : State) (cp : CtlPort) (f : CtlRec → CtlRec) : (s.updCtl cp f).urgent = s.urgent := rfl

@[simp] theorem State.updCtl_table (s : State) (cp : CtlPort) (f : CtlRec → CtlRec) : (s.updCtl cp f).table = s.table := rfl

@[simp] theorem State.updCtl_decayTimer (s : State) (cp : CtlPort) (f : CtlRec → CtlRec) : (s.updCtl cp f).decayTimer = s.decayTimer := rfl

@[simp] theorem State.updCtl_sweep (s : State) (cp : CtlPort) (f : CtlRec → CtlRec) : (s.updCtl cp f).sweep = s.sweep := rfl

@[simp] theorem State.updCtl_find (s : State) (cp : CtlPort) (f : CtlRec → CtlRec) : (s.updCtl cp f).find = s.find := rfl

@[simp] theorem State.updCtl_gateReqs (s : State) (cp : CtlPort) (f : CtlRec → CtlRec) : (s.updCtl cp f).gateReqs = s.gateReqs := rfl

@[simp] theorem State.updCtl_polls (s : State) (cp : CtlPort) (f : CtlRec → CtlRec) : (s.updCtl cp f).polls = s.polls := rfl

@[simp] theorem State.updCtl_epoch (s : State) (cp : CtlPort) (f : CtlRec → CtlRec) : (s.updCtl cp f).epoch = s.epoch := rfl

@[simp] theorem State.updCtl_ring (s : State) (cp : CtlPort) (f : CtlRec → CtlRec) : (s.updCtl cp f).ring = s.ring := rfl

@[simp] theorem State.updCtl_nextNumber (s : State) (cp : CtlPort) (f : CtlRec → CtlRec) : (s.updCtl cp f).nextNumber = s.nextNumber := rfl

@[simp] theorem State.updCtl_counters (s : State) (cp : CtlPort) (f : CtlRec → CtlRec) : (s.updCtl cp f).counters = s.counters := rfl

@[simp] theorem State.updCtl_led (s : State) (cp : CtlPort) (f : CtlRec → CtlRec) : (s.updCtl cp f).led = s.led := rfl

@[simp] theorem State.updCtl_cps (s : State) (cp : CtlPort) (f : CtlRec → CtlRec) :
    (s.updCtl cp f).cps = s.cps.set cp (f (s.cps.get cp)) := rfl

@[simp] theorem State.updCtl_holdOwner (s : State) (cp : CtlPort) (f : CtlRec → CtlRec) : (s.updCtl cp f).holdOwner = s.holdOwner := rfl

@[simp] theorem State.updCtl_pending (s : State) (cp : CtlPort) (f : CtlRec → CtlRec) : (s.updCtl cp f).pending = s.pending := rfl

/-! ### `State.hand` -/

@[simp] theorem State.hand_resetLow (s : State) (p : Option Port) (k : GateReqKind) : (s.hand p k).resetLow = s.resetLow := rfl

@[simp] theorem State.hand_msTime (s : State) (p : Option Port) (k : GateReqKind) : (s.hand p k).msTime = s.msTime := rfl

@[simp] theorem State.hand_tenthDue (s : State) (p : Option Port) (k : GateReqKind) : (s.hand p k).tenthDue = s.tenthDue := rfl

@[simp] theorem State.hand_tickBegun (s : State) (p : Option Port) (k : GateReqKind) : (s.hand p k).tickBegun = s.tickBegun := rfl

@[simp] theorem State.hand_running (s : State) (p : Option Port) (k : GateReqKind) : (s.hand p k).running = s.running := rfl

@[simp] theorem State.hand_unitNumber (s : State) (p : Option Port) (k : GateReqKind) : (s.hand p k).unitNumber = s.unitNumber := rfl

@[simp] theorem State.hand_profile (s : State) (p : Option Port) (k : GateReqKind) : (s.hand p k).profile = s.profile := rfl

@[simp] theorem State.hand_store (s : State) (p : Option Port) (k : GateReqKind) : (s.hand p k).store = s.store := rfl

@[simp] theorem State.hand_ports (s : State) (p : Option Port) (k : GateReqKind) : (s.hand p k).ports = s.ports := rfl

@[simp] theorem State.hand_taps (s : State) (p : Option Port) (k : GateReqKind) : (s.hand p k).taps = s.taps := rfl

@[simp] theorem State.hand_lastTaken (s : State) (p : Option Port) (k : GateReqKind) : (s.hand p k).lastTaken = s.lastTaken := rfl

@[simp] theorem State.hand_analysing (s : State) (p : Option Port) (k : GateReqKind) : (s.hand p k).analysing = s.analysing := rfl

@[simp] theorem State.hand_classLevel (s : State) (p : Option Port) (k : GateReqKind) : (s.hand p k).classLevel = s.classLevel := rfl

@[simp] theorem State.hand_classTimer (s : State) (p : Option Port) (k : GateReqKind) : (s.hand p k).classTimer = s.classTimer := rfl

@[simp] theorem State.hand_slotTimer (s : State) (p : Option Port) (k : GateReqKind) : (s.hand p k).slotTimer = s.slotTimer := rfl

@[simp] theorem State.hand_slotIndex (s : State) (p : Option Port) (k : GateReqKind) : (s.hand p k).slotIndex = s.slotIndex := rfl

@[simp] theorem State.hand_lastTapServed (s : State) (p : Option Port) (k : GateReqKind) : (s.hand p k).lastTapServed = s.lastTapServed := rfl

@[simp] theorem State.hand_firstDeferred (s : State) (p : Option Port) (k : GateReqKind) : (s.hand p k).firstDeferred = s.firstDeferred := rfl

@[simp] theorem State.hand_seqCounter (s : State) (p : Option Port) (k : GateReqKind) : (s.hand p k).seqCounter = s.seqCounter := rfl

@[simp] theorem State.hand_runNumber (s : State) (p : Option Port) (k : GateReqKind) : (s.hand p k).runNumber = s.runNumber := rfl

@[simp] theorem State.hand_probes (s : State) (p : Option Port) (k : GateReqKind) : (s.hand p k).probes = s.probes := rfl

@[simp] theorem State.hand_lifeLimit (s : State) (p : Option Port) (k : GateReqKind) : (s.hand p k).lifeLimit = s.lifeLimit := rfl

@[simp] theorem State.hand_urgent (s : State) (p : Option Port) (k : GateReqKind) : (s.hand p k).urgent = s.urgent := rfl

@[simp] theorem State.hand_table (s : State) (p : Option Port) (k : GateReqKind) : (s.hand p k).table = s.table := rfl

@[simp] theorem State.hand_decayTimer (s : State) (p : Option Port) (k : GateReqKind) : (s.hand p k).decayTimer = s.decayTimer := rfl

@[simp] theorem State.hand_sweep (s : State) (p : Option Port) (k : GateReqKind) : (s.hand p k).sweep = s.sweep := rfl

@[simp] theorem State.hand_find (s : State) (p : Option Port) (k : GateReqKind) : (s.hand p k).find = s.find := rfl

@[simp] theorem State.hand_gateReqs (s : State) (p : Option Port) (k : GateReqKind) :
    (s.hand p k).gateReqs = s.gateReqs ++ [⟨p, k, none⟩] := rfl

@[simp] theorem State.hand_polls (s : State) (p : Option Port) (k : GateReqKind) : (s.hand p k).polls = s.polls := rfl

@[simp] theorem State.hand_epoch (s : State) (p : Option Port) (k : GateReqKind) : (s.hand p k).epoch = s.epoch := rfl

@[simp] theorem State.hand_ring (s : State) (p : Option Port) (k : GateReqKind) : (s.hand p k).ring = s.ring := rfl

@[simp] theorem State.hand_nextNumber (s : State) (p : Option Port) (k : GateReqKind) : (s.hand p k).nextNumber = s.nextNumber := rfl

@[simp] theorem State.hand_counters (s : State) (p : Option Port) (k : GateReqKind) : (s.hand p k).counters = s.counters := rfl

@[simp] theorem State.hand_led (s : State) (p : Option Port) (k : GateReqKind) : (s.hand p k).led = s.led := rfl

@[simp] theorem State.hand_cps (s : State) (p : Option Port) (k : GateReqKind) : (s.hand p k).cps = s.cps := rfl

@[simp] theorem State.hand_holdOwner (s : State) (p : Option Port) (k : GateReqKind) : (s.hand p k).holdOwner = s.holdOwner := rfl

@[simp] theorem State.hand_pending (s : State) (p : Option Port) (k : GateReqKind) : (s.hand p k).pending = s.pending := rfl

/-! ### `State.handUrgent` -/

@[simp] theorem State.handUrgent_resetLow (s : State) (p : Port) (c : Bool) : (s.handUrgent p c).resetLow = s.resetLow := rfl

@[simp] theorem State.handUrgent_msTime (s : State) (p : Port) (c : Bool) : (s.handUrgent p c).msTime = s.msTime := rfl

@[simp] theorem State.handUrgent_tenthDue (s : State) (p : Port) (c : Bool) : (s.handUrgent p c).tenthDue = s.tenthDue := rfl

@[simp] theorem State.handUrgent_tickBegun (s : State) (p : Port) (c : Bool) : (s.handUrgent p c).tickBegun = s.tickBegun := rfl

@[simp] theorem State.handUrgent_running (s : State) (p : Port) (c : Bool) : (s.handUrgent p c).running = s.running := rfl

@[simp] theorem State.handUrgent_unitNumber (s : State) (p : Port) (c : Bool) : (s.handUrgent p c).unitNumber = s.unitNumber := rfl

@[simp] theorem State.handUrgent_profile (s : State) (p : Port) (c : Bool) : (s.handUrgent p c).profile = s.profile := rfl

@[simp] theorem State.handUrgent_store (s : State) (p : Port) (c : Bool) : (s.handUrgent p c).store = s.store := rfl

@[simp] theorem State.handUrgent_ports (s : State) (p : Port) (c : Bool) : (s.handUrgent p c).ports = s.ports := rfl

@[simp] theorem State.handUrgent_taps (s : State) (p : Port) (c : Bool) : (s.handUrgent p c).taps = s.taps := rfl

@[simp] theorem State.handUrgent_lastTaken (s : State) (p : Port) (c : Bool) : (s.handUrgent p c).lastTaken = s.lastTaken := rfl

@[simp] theorem State.handUrgent_analysing (s : State) (p : Port) (c : Bool) : (s.handUrgent p c).analysing = s.analysing := rfl

@[simp] theorem State.handUrgent_classLevel (s : State) (p : Port) (c : Bool) : (s.handUrgent p c).classLevel = s.classLevel := rfl

@[simp] theorem State.handUrgent_classTimer (s : State) (p : Port) (c : Bool) : (s.handUrgent p c).classTimer = s.classTimer := rfl

@[simp] theorem State.handUrgent_slotTimer (s : State) (p : Port) (c : Bool) : (s.handUrgent p c).slotTimer = s.slotTimer := rfl

@[simp] theorem State.handUrgent_slotIndex (s : State) (p : Port) (c : Bool) : (s.handUrgent p c).slotIndex = s.slotIndex := rfl

@[simp] theorem State.handUrgent_lastTapServed (s : State) (p : Port) (c : Bool) : (s.handUrgent p c).lastTapServed = s.lastTapServed := rfl

@[simp] theorem State.handUrgent_firstDeferred (s : State) (p : Port) (c : Bool) : (s.handUrgent p c).firstDeferred = s.firstDeferred := rfl

@[simp] theorem State.handUrgent_seqCounter (s : State) (p : Port) (c : Bool) : (s.handUrgent p c).seqCounter = s.seqCounter := rfl

@[simp] theorem State.handUrgent_runNumber (s : State) (p : Port) (c : Bool) : (s.handUrgent p c).runNumber = s.runNumber := rfl

@[simp] theorem State.handUrgent_probes (s : State) (p : Port) (c : Bool) : (s.handUrgent p c).probes = s.probes := rfl

@[simp] theorem State.handUrgent_lifeLimit (s : State) (p : Port) (c : Bool) : (s.handUrgent p c).lifeLimit = s.lifeLimit := rfl

@[simp] theorem State.handUrgent_urgent (s : State) (p : Port) (c : Bool) :
    (s.handUrgent p c).urgent = s.urgent ++ [⟨p, c⟩] := rfl

@[simp] theorem State.handUrgent_table (s : State) (p : Port) (c : Bool) : (s.handUrgent p c).table = s.table := rfl

@[simp] theorem State.handUrgent_decayTimer (s : State) (p : Port) (c : Bool) : (s.handUrgent p c).decayTimer = s.decayTimer := rfl

@[simp] theorem State.handUrgent_sweep (s : State) (p : Port) (c : Bool) : (s.handUrgent p c).sweep = s.sweep := rfl

@[simp] theorem State.handUrgent_find (s : State) (p : Port) (c : Bool) : (s.handUrgent p c).find = s.find := rfl

@[simp] theorem State.handUrgent_gateReqs (s : State) (p : Port) (c : Bool) : (s.handUrgent p c).gateReqs = s.gateReqs := rfl

@[simp] theorem State.handUrgent_polls (s : State) (p : Port) (c : Bool) : (s.handUrgent p c).polls = s.polls := rfl

@[simp] theorem State.handUrgent_epoch (s : State) (p : Port) (c : Bool) : (s.handUrgent p c).epoch = s.epoch := rfl

@[simp] theorem State.handUrgent_ring (s : State) (p : Port) (c : Bool) : (s.handUrgent p c).ring = s.ring := rfl

@[simp] theorem State.handUrgent_nextNumber (s : State) (p : Port) (c : Bool) : (s.handUrgent p c).nextNumber = s.nextNumber := rfl

@[simp] theorem State.handUrgent_counters (s : State) (p : Port) (c : Bool) : (s.handUrgent p c).counters = s.counters := rfl

@[simp] theorem State.handUrgent_led (s : State) (p : Port) (c : Bool) : (s.handUrgent p c).led = s.led := rfl

@[simp] theorem State.handUrgent_cps (s : State) (p : Port) (c : Bool) : (s.handUrgent p c).cps = s.cps := rfl

@[simp] theorem State.handUrgent_holdOwner (s : State) (p : Port) (c : Bool) : (s.handUrgent p c).holdOwner = s.holdOwner := rfl

@[simp] theorem State.handUrgent_pending (s : State) (p : Port) (c : Bool) : (s.handUrgent p c).pending = s.pending := rfl

/-! ### `State.census` -/

@[simp] theorem State.census_resetLow (s : State) (k : CensusKind) (p : Option Port) (n : Nat) : (s.census k p n).resetLow = s.resetLow := rfl

@[simp] theorem State.census_msTime (s : State) (k : CensusKind) (p : Option Port) (n : Nat) : (s.census k p n).msTime = s.msTime := rfl

@[simp] theorem State.census_tenthDue (s : State) (k : CensusKind) (p : Option Port) (n : Nat) : (s.census k p n).tenthDue = s.tenthDue := rfl

@[simp] theorem State.census_tickBegun (s : State) (k : CensusKind) (p : Option Port) (n : Nat) : (s.census k p n).tickBegun = s.tickBegun := rfl

@[simp] theorem State.census_running (s : State) (k : CensusKind) (p : Option Port) (n : Nat) : (s.census k p n).running = s.running := rfl

@[simp] theorem State.census_unitNumber (s : State) (k : CensusKind) (p : Option Port) (n : Nat) : (s.census k p n).unitNumber = s.unitNumber := rfl

@[simp] theorem State.census_profile (s : State) (k : CensusKind) (p : Option Port) (n : Nat) : (s.census k p n).profile = s.profile := rfl

@[simp] theorem State.census_store (s : State) (k : CensusKind) (p : Option Port) (n : Nat) : (s.census k p n).store = s.store := rfl

@[simp] theorem State.census_ports (s : State) (k : CensusKind) (p : Option Port) (n : Nat) : (s.census k p n).ports = s.ports := rfl

@[simp] theorem State.census_taps (s : State) (k : CensusKind) (p : Option Port) (n : Nat) : (s.census k p n).taps = s.taps := rfl

@[simp] theorem State.census_lastTaken (s : State) (k : CensusKind) (p : Option Port) (n : Nat) : (s.census k p n).lastTaken = s.lastTaken := rfl

@[simp] theorem State.census_analysing (s : State) (k : CensusKind) (p : Option Port) (n : Nat) : (s.census k p n).analysing = s.analysing := rfl

@[simp] theorem State.census_classLevel (s : State) (k : CensusKind) (p : Option Port) (n : Nat) : (s.census k p n).classLevel = s.classLevel := rfl

@[simp] theorem State.census_classTimer (s : State) (k : CensusKind) (p : Option Port) (n : Nat) : (s.census k p n).classTimer = s.classTimer := rfl

@[simp] theorem State.census_slotTimer (s : State) (k : CensusKind) (p : Option Port) (n : Nat) : (s.census k p n).slotTimer = s.slotTimer := rfl

@[simp] theorem State.census_slotIndex (s : State) (k : CensusKind) (p : Option Port) (n : Nat) : (s.census k p n).slotIndex = s.slotIndex := rfl

@[simp] theorem State.census_lastTapServed (s : State) (k : CensusKind) (p : Option Port) (n : Nat) : (s.census k p n).lastTapServed = s.lastTapServed := rfl

@[simp] theorem State.census_firstDeferred (s : State) (k : CensusKind) (p : Option Port) (n : Nat) : (s.census k p n).firstDeferred = s.firstDeferred := rfl

@[simp] theorem State.census_seqCounter (s : State) (k : CensusKind) (p : Option Port) (n : Nat) : (s.census k p n).seqCounter = s.seqCounter := rfl

@[simp] theorem State.census_runNumber (s : State) (k : CensusKind) (p : Option Port) (n : Nat) : (s.census k p n).runNumber = s.runNumber := rfl

@[simp] theorem State.census_probes (s : State) (k : CensusKind) (p : Option Port) (n : Nat) : (s.census k p n).probes = s.probes := rfl

@[simp] theorem State.census_lifeLimit (s : State) (k : CensusKind) (p : Option Port) (n : Nat) : (s.census k p n).lifeLimit = s.lifeLimit := rfl

@[simp] theorem State.census_urgent (s : State) (k : CensusKind) (p : Option Port) (n : Nat) : (s.census k p n).urgent = s.urgent := rfl

@[simp] theorem State.census_table (s : State) (k : CensusKind) (p : Option Port) (n : Nat) : (s.census k p n).table = s.table := rfl

@[simp] theorem State.census_decayTimer (s : State) (k : CensusKind) (p : Option Port) (n : Nat) : (s.census k p n).decayTimer = s.decayTimer := rfl

@[simp] theorem State.census_sweep (s : State) (k : CensusKind) (p : Option Port) (n : Nat) : (s.census k p n).sweep = s.sweep := rfl

@[simp] theorem State.census_find (s : State) (k : CensusKind) (p : Option Port) (n : Nat) : (s.census k p n).find = s.find := rfl

@[simp] theorem State.census_gateReqs (s : State) (k : CensusKind) (p : Option Port) (n : Nat) : (s.census k p n).gateReqs = s.gateReqs := rfl

@[simp] theorem State.census_polls (s : State) (k : CensusKind) (p : Option Port) (n : Nat) : (s.census k p n).polls = s.polls := rfl

@[simp] theorem State.census_epoch (s : State) (k : CensusKind) (p : Option Port) (n : Nat) : (s.census k p n).epoch = s.epoch := rfl

@[simp] theorem State.census_ring (s : State) (k : CensusKind) (p : Option Port) (n : Nat) : (s.census k p n).ring = s.ring := rfl

@[simp] theorem State.census_nextNumber (s : State) (k : CensusKind) (p : Option Port) (n : Nat) : (s.census k p n).nextNumber = s.nextNumber := rfl

@[simp] theorem State.census_counters (s : State) (k : CensusKind) (p : Option Port) (n : Nat) :
    (s.census k p n).counters = Vector.ofFn fun i => s.counters[i].hit k p n := rfl

@[simp] theorem State.census_led (s : State) (k : CensusKind) (p : Option Port) (n : Nat) : (s.census k p n).led = s.led := rfl

@[simp] theorem State.census_cps (s : State) (k : CensusKind) (p : Option Port) (n : Nat) : (s.census k p n).cps = s.cps := rfl

@[simp] theorem State.census_holdOwner (s : State) (k : CensusKind) (p : Option Port) (n : Nat) : (s.census k p n).holdOwner = s.holdOwner := rfl

@[simp] theorem State.census_pending (s : State) (k : CensusKind) (p : Option Port) (n : Nat) : (s.census k p n).pending = s.pending := rfl

/-! ### `State.raiseOn` -/

@[simp] theorem State.raiseOn_resetLow (s : State) (cp : CtlPort) (f : EventFlag) : (s.raiseOn cp f).resetLow = s.resetLow := rfl

@[simp] theorem State.raiseOn_msTime (s : State) (cp : CtlPort) (f : EventFlag) : (s.raiseOn cp f).msTime = s.msTime := rfl

@[simp] theorem State.raiseOn_tenthDue (s : State) (cp : CtlPort) (f : EventFlag) : (s.raiseOn cp f).tenthDue = s.tenthDue := rfl

@[simp] theorem State.raiseOn_tickBegun (s : State) (cp : CtlPort) (f : EventFlag) : (s.raiseOn cp f).tickBegun = s.tickBegun := rfl

@[simp] theorem State.raiseOn_running (s : State) (cp : CtlPort) (f : EventFlag) : (s.raiseOn cp f).running = s.running := rfl

@[simp] theorem State.raiseOn_unitNumber (s : State) (cp : CtlPort) (f : EventFlag) : (s.raiseOn cp f).unitNumber = s.unitNumber := rfl

@[simp] theorem State.raiseOn_profile (s : State) (cp : CtlPort) (f : EventFlag) : (s.raiseOn cp f).profile = s.profile := rfl

@[simp] theorem State.raiseOn_store (s : State) (cp : CtlPort) (f : EventFlag) : (s.raiseOn cp f).store = s.store := rfl

@[simp] theorem State.raiseOn_ports (s : State) (cp : CtlPort) (f : EventFlag) : (s.raiseOn cp f).ports = s.ports := rfl

@[simp] theorem State.raiseOn_taps (s : State) (cp : CtlPort) (f : EventFlag) : (s.raiseOn cp f).taps = s.taps := rfl

@[simp] theorem State.raiseOn_lastTaken (s : State) (cp : CtlPort) (f : EventFlag) : (s.raiseOn cp f).lastTaken = s.lastTaken := rfl

@[simp] theorem State.raiseOn_analysing (s : State) (cp : CtlPort) (f : EventFlag) : (s.raiseOn cp f).analysing = s.analysing := rfl

@[simp] theorem State.raiseOn_classLevel (s : State) (cp : CtlPort) (f : EventFlag) : (s.raiseOn cp f).classLevel = s.classLevel := rfl

@[simp] theorem State.raiseOn_classTimer (s : State) (cp : CtlPort) (f : EventFlag) : (s.raiseOn cp f).classTimer = s.classTimer := rfl

@[simp] theorem State.raiseOn_slotTimer (s : State) (cp : CtlPort) (f : EventFlag) : (s.raiseOn cp f).slotTimer = s.slotTimer := rfl

@[simp] theorem State.raiseOn_slotIndex (s : State) (cp : CtlPort) (f : EventFlag) : (s.raiseOn cp f).slotIndex = s.slotIndex := rfl

@[simp] theorem State.raiseOn_lastTapServed (s : State) (cp : CtlPort) (f : EventFlag) : (s.raiseOn cp f).lastTapServed = s.lastTapServed := rfl

@[simp] theorem State.raiseOn_firstDeferred (s : State) (cp : CtlPort) (f : EventFlag) : (s.raiseOn cp f).firstDeferred = s.firstDeferred := rfl

@[simp] theorem State.raiseOn_seqCounter (s : State) (cp : CtlPort) (f : EventFlag) : (s.raiseOn cp f).seqCounter = s.seqCounter := rfl

@[simp] theorem State.raiseOn_runNumber (s : State) (cp : CtlPort) (f : EventFlag) : (s.raiseOn cp f).runNumber = s.runNumber := rfl

@[simp] theorem State.raiseOn_probes (s : State) (cp : CtlPort) (f : EventFlag) : (s.raiseOn cp f).probes = s.probes := rfl

@[simp] theorem State.raiseOn_lifeLimit (s : State) (cp : CtlPort) (f : EventFlag) : (s.raiseOn cp f).lifeLimit = s.lifeLimit := rfl

@[simp] theorem State.raiseOn_urgent (s : State) (cp : CtlPort) (f : EventFlag) : (s.raiseOn cp f).urgent = s.urgent := rfl

@[simp] theorem State.raiseOn_table (s : State) (cp : CtlPort) (f : EventFlag) : (s.raiseOn cp f).table = s.table := rfl

@[simp] theorem State.raiseOn_decayTimer (s : State) (cp : CtlPort) (f : EventFlag) : (s.raiseOn cp f).decayTimer = s.decayTimer := rfl

@[simp] theorem State.raiseOn_sweep (s : State) (cp : CtlPort) (f : EventFlag) : (s.raiseOn cp f).sweep = s.sweep := rfl

@[simp] theorem State.raiseOn_find (s : State) (cp : CtlPort) (f : EventFlag) : (s.raiseOn cp f).find = s.find := rfl

@[simp] theorem State.raiseOn_gateReqs (s : State) (cp : CtlPort) (f : EventFlag) : (s.raiseOn cp f).gateReqs = s.gateReqs := rfl

@[simp] theorem State.raiseOn_polls (s : State) (cp : CtlPort) (f : EventFlag) : (s.raiseOn cp f).polls = s.polls := rfl

@[simp] theorem State.raiseOn_epoch (s : State) (cp : CtlPort) (f : EventFlag) : (s.raiseOn cp f).epoch = s.epoch := rfl

@[simp] theorem State.raiseOn_ring (s : State) (cp : CtlPort) (f : EventFlag) : (s.raiseOn cp f).ring = s.ring := rfl

@[simp] theorem State.raiseOn_nextNumber (s : State) (cp : CtlPort) (f : EventFlag) : (s.raiseOn cp f).nextNumber = s.nextNumber := rfl

@[simp] theorem State.raiseOn_counters (s : State) (cp : CtlPort) (f : EventFlag) : (s.raiseOn cp f).counters = s.counters := rfl

@[simp] theorem State.raiseOn_led (s : State) (cp : CtlPort) (f : EventFlag) : (s.raiseOn cp f).led = s.led := rfl

@[simp] theorem State.raiseOn_cps (s : State) (cp : CtlPort) (f : EventFlag) :
    (s.raiseOn cp f).cps = s.cps.set cp ((s.cps.get cp).raise f) := rfl

@[simp] theorem State.raiseOn_holdOwner (s : State) (cp : CtlPort) (f : EventFlag) : (s.raiseOn cp f).holdOwner = s.holdOwner := rfl

@[simp] theorem State.raiseOn_pending (s : State) (cp : CtlPort) (f : EventFlag) : (s.raiseOn cp f).pending = s.pending := rfl

/-! ### `State.raiseAttached` -/

@[simp] theorem State.raiseAttached_resetLow (s : State) (f : EventFlag) : (s.raiseAttached f).resetLow = s.resetLow := rfl

@[simp] theorem State.raiseAttached_msTime (s : State) (f : EventFlag) : (s.raiseAttached f).msTime = s.msTime := rfl

@[simp] theorem State.raiseAttached_tenthDue (s : State) (f : EventFlag) : (s.raiseAttached f).tenthDue = s.tenthDue := rfl

@[simp] theorem State.raiseAttached_tickBegun (s : State) (f : EventFlag) : (s.raiseAttached f).tickBegun = s.tickBegun := rfl

@[simp] theorem State.raiseAttached_running (s : State) (f : EventFlag) : (s.raiseAttached f).running = s.running := rfl

@[simp] theorem State.raiseAttached_unitNumber (s : State) (f : EventFlag) : (s.raiseAttached f).unitNumber = s.unitNumber := rfl

@[simp] theorem State.raiseAttached_profile (s : State) (f : EventFlag) : (s.raiseAttached f).profile = s.profile := rfl

@[simp] theorem State.raiseAttached_store (s : State) (f : EventFlag) : (s.raiseAttached f).store = s.store := rfl

@[simp] theorem State.raiseAttached_ports (s : State) (f : EventFlag) : (s.raiseAttached f).ports = s.ports := rfl

@[simp] theorem State.raiseAttached_taps (s : State) (f : EventFlag) : (s.raiseAttached f).taps = s.taps := rfl

@[simp] theorem State.raiseAttached_lastTaken (s : State) (f : EventFlag) : (s.raiseAttached f).lastTaken = s.lastTaken := rfl

@[simp] theorem State.raiseAttached_analysing (s : State) (f : EventFlag) : (s.raiseAttached f).analysing = s.analysing := rfl

@[simp] theorem State.raiseAttached_classLevel (s : State) (f : EventFlag) : (s.raiseAttached f).classLevel = s.classLevel := rfl

@[simp] theorem State.raiseAttached_classTimer (s : State) (f : EventFlag) : (s.raiseAttached f).classTimer = s.classTimer := rfl

@[simp] theorem State.raiseAttached_slotTimer (s : State) (f : EventFlag) : (s.raiseAttached f).slotTimer = s.slotTimer := rfl

@[simp] theorem State.raiseAttached_slotIndex (s : State) (f : EventFlag) : (s.raiseAttached f).slotIndex = s.slotIndex := rfl

@[simp] theorem State.raiseAttached_lastTapServed (s : State) (f : EventFlag) : (s.raiseAttached f).lastTapServed = s.lastTapServed := rfl

@[simp] theorem State.raiseAttached_firstDeferred (s : State) (f : EventFlag) : (s.raiseAttached f).firstDeferred = s.firstDeferred := rfl

@[simp] theorem State.raiseAttached_seqCounter (s : State) (f : EventFlag) : (s.raiseAttached f).seqCounter = s.seqCounter := rfl

@[simp] theorem State.raiseAttached_runNumber (s : State) (f : EventFlag) : (s.raiseAttached f).runNumber = s.runNumber := rfl

@[simp] theorem State.raiseAttached_probes (s : State) (f : EventFlag) : (s.raiseAttached f).probes = s.probes := rfl

@[simp] theorem State.raiseAttached_lifeLimit (s : State) (f : EventFlag) : (s.raiseAttached f).lifeLimit = s.lifeLimit := rfl

@[simp] theorem State.raiseAttached_urgent (s : State) (f : EventFlag) : (s.raiseAttached f).urgent = s.urgent := rfl

@[simp] theorem State.raiseAttached_table (s : State) (f : EventFlag) : (s.raiseAttached f).table = s.table := rfl

@[simp] theorem State.raiseAttached_decayTimer (s : State) (f : EventFlag) : (s.raiseAttached f).decayTimer = s.decayTimer := rfl

@[simp] theorem State.raiseAttached_sweep (s : State) (f : EventFlag) : (s.raiseAttached f).sweep = s.sweep := rfl

@[simp] theorem State.raiseAttached_find (s : State) (f : EventFlag) : (s.raiseAttached f).find = s.find := rfl

@[simp] theorem State.raiseAttached_gateReqs (s : State) (f : EventFlag) : (s.raiseAttached f).gateReqs = s.gateReqs := rfl

@[simp] theorem State.raiseAttached_polls (s : State) (f : EventFlag) : (s.raiseAttached f).polls = s.polls := rfl

@[simp] theorem State.raiseAttached_epoch (s : State) (f : EventFlag) : (s.raiseAttached f).epoch = s.epoch := rfl

@[simp] theorem State.raiseAttached_ring (s : State) (f : EventFlag) : (s.raiseAttached f).ring = s.ring := rfl

@[simp] theorem State.raiseAttached_nextNumber (s : State) (f : EventFlag) : (s.raiseAttached f).nextNumber = s.nextNumber := rfl

@[simp] theorem State.raiseAttached_counters (s : State) (f : EventFlag) : (s.raiseAttached f).counters = s.counters := rfl

@[simp] theorem State.raiseAttached_led (s : State) (f : EventFlag) : (s.raiseAttached f).led = s.led := rfl

@[simp] theorem State.raiseAttached_cps (s : State) (f : EventFlag) :
    (s.raiseAttached f).cps = ⟨s.cps.cp0.raise f, if s.profile.cp1Attached then s.cps.cp1.raise f else s.cps.cp1⟩ := rfl

@[simp] theorem State.raiseAttached_holdOwner (s : State) (f : EventFlag) : (s.raiseAttached f).holdOwner = s.holdOwner := rfl

@[simp] theorem State.raiseAttached_pending (s : State) (f : EventFlag) : (s.raiseAttached f).pending = s.pending := rfl

/-! ### `State.record` -/

@[simp] theorem State.record_resetLow (s : State) (r : IncidentReq) : (s.record r).resetLow = s.resetLow := rfl

@[simp] theorem State.record_msTime (s : State) (r : IncidentReq) : (s.record r).msTime = s.msTime := rfl

@[simp] theorem State.record_tenthDue (s : State) (r : IncidentReq) : (s.record r).tenthDue = s.tenthDue := rfl

@[simp] theorem State.record_tickBegun (s : State) (r : IncidentReq) : (s.record r).tickBegun = s.tickBegun := rfl

@[simp] theorem State.record_running (s : State) (r : IncidentReq) : (s.record r).running = s.running := rfl

@[simp] theorem State.record_unitNumber (s : State) (r : IncidentReq) : (s.record r).unitNumber = s.unitNumber := rfl

@[simp] theorem State.record_profile (s : State) (r : IncidentReq) : (s.record r).profile = s.profile := rfl

@[simp] theorem State.record_store (s : State) (r : IncidentReq) : (s.record r).store = s.store := rfl

@[simp] theorem State.record_ports (s : State) (r : IncidentReq) : (s.record r).ports = s.ports := rfl

@[simp] theorem State.record_taps (s : State) (r : IncidentReq) : (s.record r).taps = s.taps := rfl

@[simp] theorem State.record_lastTaken (s : State) (r : IncidentReq) : (s.record r).lastTaken = s.lastTaken := rfl

@[simp] theorem State.record_analysing (s : State) (r : IncidentReq) : (s.record r).analysing = s.analysing := rfl

@[simp] theorem State.record_classLevel (s : State) (r : IncidentReq) : (s.record r).classLevel = s.classLevel := rfl

@[simp] theorem State.record_classTimer (s : State) (r : IncidentReq) : (s.record r).classTimer = s.classTimer := rfl

@[simp] theorem State.record_slotTimer (s : State) (r : IncidentReq) : (s.record r).slotTimer = s.slotTimer := rfl

@[simp] theorem State.record_slotIndex (s : State) (r : IncidentReq) : (s.record r).slotIndex = s.slotIndex := rfl

@[simp] theorem State.record_lastTapServed (s : State) (r : IncidentReq) : (s.record r).lastTapServed = s.lastTapServed := rfl

@[simp] theorem State.record_firstDeferred (s : State) (r : IncidentReq) : (s.record r).firstDeferred = s.firstDeferred := rfl

@[simp] theorem State.record_seqCounter (s : State) (r : IncidentReq) : (s.record r).seqCounter = s.seqCounter := rfl

@[simp] theorem State.record_runNumber (s : State) (r : IncidentReq) : (s.record r).runNumber = s.runNumber := rfl

@[simp] theorem State.record_probes (s : State) (r : IncidentReq) : (s.record r).probes = s.probes := rfl

@[simp] theorem State.record_lifeLimit (s : State) (r : IncidentReq) : (s.record r).lifeLimit = s.lifeLimit := rfl

@[simp] theorem State.record_urgent (s : State) (r : IncidentReq) : (s.record r).urgent = s.urgent := rfl

@[simp] theorem State.record_table (s : State) (r : IncidentReq) : (s.record r).table = s.table := rfl

@[simp] theorem State.record_decayTimer (s : State) (r : IncidentReq) : (s.record r).decayTimer = s.decayTimer := rfl

@[simp] theorem State.record_sweep (s : State) (r : IncidentReq) : (s.record r).sweep = s.sweep := rfl

@[simp] theorem State.record_find (s : State) (r : IncidentReq) : (s.record r).find = s.find := rfl

@[simp] theorem State.record_gateReqs (s : State) (r : IncidentReq) : (s.record r).gateReqs = s.gateReqs := rfl

@[simp] theorem State.record_polls (s : State) (r : IncidentReq) : (s.record r).polls = s.polls := rfl

@[simp] theorem State.record_epoch (s : State) (r : IncidentReq) : (s.record r).epoch = s.epoch := rfl

@[simp] theorem State.record_nextNumber (s : State) (r : IncidentReq) :
    (s.record r).nextNumber = s.nextNumber + 1 := rfl

@[simp] theorem State.record_counters (s : State) (r : IncidentReq) : (s.record r).counters = s.counters := rfl

@[simp] theorem State.record_led (s : State) (r : IncidentReq) : (s.record r).led = s.led := rfl

@[simp] theorem State.record_holdOwner (s : State) (r : IncidentReq) : (s.record r).holdOwner = s.holdOwner := rfl

@[simp] theorem State.record_pending (s : State) (r : IncidentReq) : (s.record r).pending = s.pending := rfl

/-! ### `State.freeRead` -/

@[simp] theorem State.freeRead_resetLow (s : State) : (s.freeRead).resetLow = s.resetLow := rfl

@[simp] theorem State.freeRead_msTime (s : State) : (s.freeRead).msTime = s.msTime := rfl

@[simp] theorem State.freeRead_tenthDue (s : State) : (s.freeRead).tenthDue = s.tenthDue := rfl

@[simp] theorem State.freeRead_tickBegun (s : State) : (s.freeRead).tickBegun = s.tickBegun := rfl

@[simp] theorem State.freeRead_running (s : State) : (s.freeRead).running = s.running := rfl

@[simp] theorem State.freeRead_unitNumber (s : State) : (s.freeRead).unitNumber = s.unitNumber := rfl

@[simp] theorem State.freeRead_profile (s : State) : (s.freeRead).profile = s.profile := rfl

@[simp] theorem State.freeRead_store (s : State) : (s.freeRead).store = s.store := rfl

@[simp] theorem State.freeRead_ports (s : State) : (s.freeRead).ports = s.ports := rfl

@[simp] theorem State.freeRead_taps (s : State) : (s.freeRead).taps = s.taps := rfl

@[simp] theorem State.freeRead_lastTaken (s : State) : (s.freeRead).lastTaken = s.lastTaken := rfl

@[simp] theorem State.freeRead_analysing (s : State) : (s.freeRead).analysing = s.analysing := rfl

@[simp] theorem State.freeRead_classLevel (s : State) : (s.freeRead).classLevel = s.classLevel := rfl

@[simp] theorem State.freeRead_classTimer (s : State) : (s.freeRead).classTimer = s.classTimer := rfl

@[simp] theorem State.freeRead_slotTimer (s : State) : (s.freeRead).slotTimer = s.slotTimer := rfl

@[simp] theorem State.freeRead_slotIndex (s : State) : (s.freeRead).slotIndex = s.slotIndex := rfl

@[simp] theorem State.freeRead_lastTapServed (s : State) : (s.freeRead).lastTapServed = s.lastTapServed := rfl

@[simp] theorem State.freeRead_firstDeferred (s : State) : (s.freeRead).firstDeferred = s.firstDeferred := rfl

@[simp] theorem State.freeRead_seqCounter (s : State) : (s.freeRead).seqCounter = s.seqCounter := rfl

@[simp] theorem State.freeRead_runNumber (s : State) : (s.freeRead).runNumber = s.runNumber := rfl

@[simp] theorem State.freeRead_probes (s : State) : (s.freeRead).probes = s.probes := rfl

@[simp] theorem State.freeRead_lifeLimit (s : State) : (s.freeRead).lifeLimit = s.lifeLimit := rfl

@[simp] theorem State.freeRead_urgent (s : State) : (s.freeRead).urgent = s.urgent := rfl

@[simp] theorem State.freeRead_table (s : State) : (s.freeRead).table = s.table := rfl

@[simp] theorem State.freeRead_decayTimer (s : State) : (s.freeRead).decayTimer = s.decayTimer := rfl

@[simp] theorem State.freeRead_sweep (s : State) : (s.freeRead).sweep = s.sweep := rfl

@[simp] theorem State.freeRead_find (s : State) : (s.freeRead).find = s.find := rfl

@[simp] theorem State.freeRead_gateReqs (s : State) : (s.freeRead).gateReqs = s.gateReqs := rfl

@[simp] theorem State.freeRead_polls (s : State) : (s.freeRead).polls = s.polls := rfl

@[simp] theorem State.freeRead_epoch (s : State) : (s.freeRead).epoch = s.epoch := rfl

@[simp] theorem State.freeRead_ring (s : State) :
    (s.freeRead).ring = s.ring.drop (s.ring.length - s.furthest) := rfl

@[simp] theorem State.freeRead_nextNumber (s : State) : (s.freeRead).nextNumber = s.nextNumber := rfl

@[simp] theorem State.freeRead_counters (s : State) : (s.freeRead).counters = s.counters := rfl

@[simp] theorem State.freeRead_led (s : State) : (s.freeRead).led = s.led := rfl

@[simp] theorem State.freeRead_cps (s : State) : (s.freeRead).cps = s.cps := rfl

@[simp] theorem State.freeRead_holdOwner (s : State) : (s.freeRead).holdOwner = s.holdOwner := rfl

@[simp] theorem State.freeRead_pending (s : State) : (s.freeRead).pending = s.pending := rfl

/-! ### `State.listen` -/

@[simp] theorem State.listen_resetLow (s : State) (p : Port) : (s.listen p).resetLow = s.resetLow := rfl

@[simp] theorem State.listen_msTime (s : State) (p : Port) : (s.listen p).msTime = s.msTime := rfl

@[simp] theorem State.listen_tenthDue (s : State) (p : Port) : (s.listen p).tenthDue = s.tenthDue := rfl

@[simp] theorem State.listen_tickBegun (s : State) (p : Port) : (s.listen p).tickBegun = s.tickBegun := rfl

@[simp] theorem State.listen_running (s : State) (p : Port) : (s.listen p).running = s.running := rfl

@[simp] theorem State.listen_unitNumber (s : State) (p : Port) : (s.listen p).unitNumber = s.unitNumber := rfl

@[simp] theorem State.listen_profile (s : State) (p : Port) : (s.listen p).profile = s.profile := rfl

@[simp] theorem State.listen_store (s : State) (p : Port) : (s.listen p).store = s.store := rfl

@[simp] theorem State.listen_ports (s : State) (p : Port) :
    (s.listen p).ports = s.ports.set p s.ports[p].toListen := rfl

@[simp] theorem State.listen_taps (s : State) (p : Port) : (s.listen p).taps = s.taps := rfl

@[simp] theorem State.listen_lastTaken (s : State) (p : Port) : (s.listen p).lastTaken = s.lastTaken := rfl

@[simp] theorem State.listen_analysing (s : State) (p : Port) : (s.listen p).analysing = s.analysing := rfl

@[simp] theorem State.listen_classLevel (s : State) (p : Port) : (s.listen p).classLevel = s.classLevel := rfl

@[simp] theorem State.listen_classTimer (s : State) (p : Port) : (s.listen p).classTimer = s.classTimer := rfl

@[simp] theorem State.listen_slotTimer (s : State) (p : Port) : (s.listen p).slotTimer = s.slotTimer := rfl

@[simp] theorem State.listen_slotIndex (s : State) (p : Port) : (s.listen p).slotIndex = s.slotIndex := rfl

@[simp] theorem State.listen_lastTapServed (s : State) (p : Port) : (s.listen p).lastTapServed = s.lastTapServed := rfl

@[simp] theorem State.listen_firstDeferred (s : State) (p : Port) : (s.listen p).firstDeferred = s.firstDeferred := rfl

@[simp] theorem State.listen_seqCounter (s : State) (p : Port) : (s.listen p).seqCounter = s.seqCounter := rfl

@[simp] theorem State.listen_runNumber (s : State) (p : Port) : (s.listen p).runNumber = s.runNumber := rfl

@[simp] theorem State.listen_probes (s : State) (p : Port) : (s.listen p).probes = s.probes := rfl

@[simp] theorem State.listen_lifeLimit (s : State) (p : Port) : (s.listen p).lifeLimit = s.lifeLimit := rfl

@[simp] theorem State.listen_urgent (s : State) (p : Port) :
    (s.listen p).urgent = s.urgent ++ [⟨p, false⟩] := rfl

@[simp] theorem State.listen_table (s : State) (p : Port) : (s.listen p).table = s.table := rfl

@[simp] theorem State.listen_decayTimer (s : State) (p : Port) : (s.listen p).decayTimer = s.decayTimer := rfl

@[simp] theorem State.listen_sweep (s : State) (p : Port) : (s.listen p).sweep = s.sweep := rfl

@[simp] theorem State.listen_find (s : State) (p : Port) : (s.listen p).find = s.find := rfl

@[simp] theorem State.listen_gateReqs (s : State) (p : Port) :
    (s.listen p).gateReqs = s.gateReqs.filter fun r => decide (¬(r.port = some p ∧ r.kind = .listenCompletion)) := rfl

@[simp] theorem State.listen_polls (s : State) (p : Port) : (s.listen p).polls = s.polls := rfl

@[simp] theorem State.listen_epoch (s : State) (p : Port) : (s.listen p).epoch = s.epoch := rfl

@[simp] theorem State.listen_ring (s : State) (p : Port) : (s.listen p).ring = s.ring := rfl

@[simp] theorem State.listen_nextNumber (s : State) (p : Port) : (s.listen p).nextNumber = s.nextNumber := rfl

@[simp] theorem State.listen_counters (s : State) (p : Port) : (s.listen p).counters = s.counters := rfl

@[simp] theorem State.listen_led (s : State) (p : Port) : (s.listen p).led = s.led := rfl

@[simp] theorem State.listen_cps (s : State) (p : Port) : (s.listen p).cps = s.cps := rfl

@[simp] theorem State.listen_holdOwner (s : State) (p : Port) : (s.listen p).holdOwner = s.holdOwner := rfl

@[simp] theorem State.listen_pending (s : State) (p : Port) : (s.listen p).pending = s.pending := rfl

/-! ### `State.addAttempts` -/

@[simp] theorem State.addAttempts_resetLow (s : State) (t : TapId) (n : Nat) : (s.addAttempts t n).resetLow = s.resetLow := rfl

@[simp] theorem State.addAttempts_msTime (s : State) (t : TapId) (n : Nat) : (s.addAttempts t n).msTime = s.msTime := rfl

@[simp] theorem State.addAttempts_tenthDue (s : State) (t : TapId) (n : Nat) : (s.addAttempts t n).tenthDue = s.tenthDue := rfl

@[simp] theorem State.addAttempts_tickBegun (s : State) (t : TapId) (n : Nat) : (s.addAttempts t n).tickBegun = s.tickBegun := rfl

@[simp] theorem State.addAttempts_running (s : State) (t : TapId) (n : Nat) : (s.addAttempts t n).running = s.running := rfl

@[simp] theorem State.addAttempts_unitNumber (s : State) (t : TapId) (n : Nat) : (s.addAttempts t n).unitNumber = s.unitNumber := rfl

@[simp] theorem State.addAttempts_profile (s : State) (t : TapId) (n : Nat) : (s.addAttempts t n).profile = s.profile := rfl

@[simp] theorem State.addAttempts_store (s : State) (t : TapId) (n : Nat) : (s.addAttempts t n).store = s.store := rfl

@[simp] theorem State.addAttempts_ports (s : State) (t : TapId) (n : Nat) : (s.addAttempts t n).ports = s.ports := rfl

@[simp] theorem State.addAttempts_taps (s : State) (t : TapId) (n : Nat) :
    (s.addAttempts t n).taps = s.taps.set t (let x := s.taps.get t; { x with attempts := x.attempts + n }) := rfl

@[simp] theorem State.addAttempts_lastTaken (s : State) (t : TapId) (n : Nat) : (s.addAttempts t n).lastTaken = s.lastTaken := rfl

@[simp] theorem State.addAttempts_analysing (s : State) (t : TapId) (n : Nat) : (s.addAttempts t n).analysing = s.analysing := rfl

@[simp] theorem State.addAttempts_classLevel (s : State) (t : TapId) (n : Nat) : (s.addAttempts t n).classLevel = s.classLevel := rfl

@[simp] theorem State.addAttempts_classTimer (s : State) (t : TapId) (n : Nat) : (s.addAttempts t n).classTimer = s.classTimer := rfl

@[simp] theorem State.addAttempts_slotTimer (s : State) (t : TapId) (n : Nat) : (s.addAttempts t n).slotTimer = s.slotTimer := rfl

@[simp] theorem State.addAttempts_slotIndex (s : State) (t : TapId) (n : Nat) : (s.addAttempts t n).slotIndex = s.slotIndex := rfl

@[simp] theorem State.addAttempts_lastTapServed (s : State) (t : TapId) (n : Nat) : (s.addAttempts t n).lastTapServed = s.lastTapServed := rfl

@[simp] theorem State.addAttempts_firstDeferred (s : State) (t : TapId) (n : Nat) : (s.addAttempts t n).firstDeferred = s.firstDeferred := rfl

@[simp] theorem State.addAttempts_seqCounter (s : State) (t : TapId) (n : Nat) : (s.addAttempts t n).seqCounter = s.seqCounter := rfl

@[simp] theorem State.addAttempts_runNumber (s : State) (t : TapId) (n : Nat) : (s.addAttempts t n).runNumber = s.runNumber := rfl

@[simp] theorem State.addAttempts_probes (s : State) (t : TapId) (n : Nat) : (s.addAttempts t n).probes = s.probes := rfl

@[simp] theorem State.addAttempts_lifeLimit (s : State) (t : TapId) (n : Nat) : (s.addAttempts t n).lifeLimit = s.lifeLimit := rfl

@[simp] theorem State.addAttempts_urgent (s : State) (t : TapId) (n : Nat) : (s.addAttempts t n).urgent = s.urgent := rfl

@[simp] theorem State.addAttempts_table (s : State) (t : TapId) (n : Nat) : (s.addAttempts t n).table = s.table := rfl

@[simp] theorem State.addAttempts_decayTimer (s : State) (t : TapId) (n : Nat) : (s.addAttempts t n).decayTimer = s.decayTimer := rfl

@[simp] theorem State.addAttempts_sweep (s : State) (t : TapId) (n : Nat) : (s.addAttempts t n).sweep = s.sweep := rfl

@[simp] theorem State.addAttempts_find (s : State) (t : TapId) (n : Nat) : (s.addAttempts t n).find = s.find := rfl

@[simp] theorem State.addAttempts_gateReqs (s : State) (t : TapId) (n : Nat) : (s.addAttempts t n).gateReqs = s.gateReqs := rfl

@[simp] theorem State.addAttempts_polls (s : State) (t : TapId) (n : Nat) : (s.addAttempts t n).polls = s.polls := rfl

@[simp] theorem State.addAttempts_epoch (s : State) (t : TapId) (n : Nat) : (s.addAttempts t n).epoch = s.epoch := rfl

@[simp] theorem State.addAttempts_ring (s : State) (t : TapId) (n : Nat) : (s.addAttempts t n).ring = s.ring := rfl

@[simp] theorem State.addAttempts_nextNumber (s : State) (t : TapId) (n : Nat) : (s.addAttempts t n).nextNumber = s.nextNumber := rfl

@[simp] theorem State.addAttempts_counters (s : State) (t : TapId) (n : Nat) : (s.addAttempts t n).counters = s.counters := rfl

@[simp] theorem State.addAttempts_led (s : State) (t : TapId) (n : Nat) : (s.addAttempts t n).led = s.led := rfl

@[simp] theorem State.addAttempts_cps (s : State) (t : TapId) (n : Nat) : (s.addAttempts t n).cps = s.cps := rfl

@[simp] theorem State.addAttempts_holdOwner (s : State) (t : TapId) (n : Nat) : (s.addAttempts t n).holdOwner = s.holdOwner := rfl

@[simp] theorem State.addAttempts_pending (s : State) (t : TapId) (n : Nat) : (s.addAttempts t n).pending = s.pending := rfl

/-! ### `State.answer` -/

@[simp] theorem State.answer_resetLow (s : State) (cp : CtlPort) (st : Status) (bs : List Byte) (a : Answer) : (s.answer cp st bs a).resetLow = s.resetLow := rfl

@[simp] theorem State.answer_msTime (s : State) (cp : CtlPort) (st : Status) (bs : List Byte) (a : Answer) : (s.answer cp st bs a).msTime = s.msTime := rfl

@[simp] theorem State.answer_tenthDue (s : State) (cp : CtlPort) (st : Status) (bs : List Byte) (a : Answer) : (s.answer cp st bs a).tenthDue = s.tenthDue := rfl

@[simp] theorem State.answer_tickBegun (s : State) (cp : CtlPort) (st : Status) (bs : List Byte) (a : Answer) : (s.answer cp st bs a).tickBegun = s.tickBegun := rfl

@[simp] theorem State.answer_running (s : State) (cp : CtlPort) (st : Status) (bs : List Byte) (a : Answer) : (s.answer cp st bs a).running = s.running := rfl

@[simp] theorem State.answer_unitNumber (s : State) (cp : CtlPort) (st : Status) (bs : List Byte) (a : Answer) : (s.answer cp st bs a).unitNumber = s.unitNumber := rfl

@[simp] theorem State.answer_profile (s : State) (cp : CtlPort) (st : Status) (bs : List Byte) (a : Answer) : (s.answer cp st bs a).profile = s.profile := rfl

@[simp] theorem State.answer_store (s : State) (cp : CtlPort) (st : Status) (bs : List Byte) (a : Answer) : (s.answer cp st bs a).store = s.store := rfl

@[simp] theorem State.answer_ports (s : State) (cp : CtlPort) (st : Status) (bs : List Byte) (a : Answer) : (s.answer cp st bs a).ports = s.ports := rfl

@[simp] theorem State.answer_taps (s : State) (cp : CtlPort) (st : Status) (bs : List Byte) (a : Answer) : (s.answer cp st bs a).taps = s.taps := rfl

@[simp] theorem State.answer_lastTaken (s : State) (cp : CtlPort) (st : Status) (bs : List Byte) (a : Answer) : (s.answer cp st bs a).lastTaken = s.lastTaken := rfl

@[simp] theorem State.answer_analysing (s : State) (cp : CtlPort) (st : Status) (bs : List Byte) (a : Answer) : (s.answer cp st bs a).analysing = s.analysing := rfl

@[simp] theorem State.answer_classLevel (s : State) (cp : CtlPort) (st : Status) (bs : List Byte) (a : Answer) : (s.answer cp st bs a).classLevel = s.classLevel := rfl

@[simp] theorem State.answer_classTimer (s : State) (cp : CtlPort) (st : Status) (bs : List Byte) (a : Answer) : (s.answer cp st bs a).classTimer = s.classTimer := rfl

@[simp] theorem State.answer_slotTimer (s : State) (cp : CtlPort) (st : Status) (bs : List Byte) (a : Answer) : (s.answer cp st bs a).slotTimer = s.slotTimer := rfl

@[simp] theorem State.answer_slotIndex (s : State) (cp : CtlPort) (st : Status) (bs : List Byte) (a : Answer) : (s.answer cp st bs a).slotIndex = s.slotIndex := rfl

@[simp] theorem State.answer_lastTapServed (s : State) (cp : CtlPort) (st : Status) (bs : List Byte) (a : Answer) : (s.answer cp st bs a).lastTapServed = s.lastTapServed := rfl

@[simp] theorem State.answer_firstDeferred (s : State) (cp : CtlPort) (st : Status) (bs : List Byte) (a : Answer) : (s.answer cp st bs a).firstDeferred = s.firstDeferred := rfl

@[simp] theorem State.answer_seqCounter (s : State) (cp : CtlPort) (st : Status) (bs : List Byte) (a : Answer) : (s.answer cp st bs a).seqCounter = s.seqCounter := rfl

@[simp] theorem State.answer_runNumber (s : State) (cp : CtlPort) (st : Status) (bs : List Byte) (a : Answer) : (s.answer cp st bs a).runNumber = s.runNumber := rfl

@[simp] theorem State.answer_probes (s : State) (cp : CtlPort) (st : Status) (bs : List Byte) (a : Answer) : (s.answer cp st bs a).probes = s.probes := rfl

@[simp] theorem State.answer_lifeLimit (s : State) (cp : CtlPort) (st : Status) (bs : List Byte) (a : Answer) : (s.answer cp st bs a).lifeLimit = s.lifeLimit := rfl

@[simp] theorem State.answer_urgent (s : State) (cp : CtlPort) (st : Status) (bs : List Byte) (a : Answer) : (s.answer cp st bs a).urgent = s.urgent := rfl

@[simp] theorem State.answer_table (s : State) (cp : CtlPort) (st : Status) (bs : List Byte) (a : Answer) : (s.answer cp st bs a).table = s.table := rfl

@[simp] theorem State.answer_decayTimer (s : State) (cp : CtlPort) (st : Status) (bs : List Byte) (a : Answer) : (s.answer cp st bs a).decayTimer = s.decayTimer := rfl

@[simp] theorem State.answer_sweep (s : State) (cp : CtlPort) (st : Status) (bs : List Byte) (a : Answer) : (s.answer cp st bs a).sweep = s.sweep := rfl

@[simp] theorem State.answer_find (s : State) (cp : CtlPort) (st : Status) (bs : List Byte) (a : Answer) : (s.answer cp st bs a).find = s.find := rfl

@[simp] theorem State.answer_gateReqs (s : State) (cp : CtlPort) (st : Status) (bs : List Byte) (a : Answer) : (s.answer cp st bs a).gateReqs = s.gateReqs := rfl

@[simp] theorem State.answer_polls (s : State) (cp : CtlPort) (st : Status) (bs : List Byte) (a : Answer) : (s.answer cp st bs a).polls = s.polls := rfl

@[simp] theorem State.answer_epoch (s : State) (cp : CtlPort) (st : Status) (bs : List Byte) (a : Answer) : (s.answer cp st bs a).epoch = s.epoch := rfl

@[simp] theorem State.answer_ring (s : State) (cp : CtlPort) (st : Status) (bs : List Byte) (a : Answer) : (s.answer cp st bs a).ring = s.ring := rfl

@[simp] theorem State.answer_nextNumber (s : State) (cp : CtlPort) (st : Status) (bs : List Byte) (a : Answer) : (s.answer cp st bs a).nextNumber = s.nextNumber := rfl

@[simp] theorem State.answer_counters (s : State) (cp : CtlPort) (st : Status) (bs : List Byte) (a : Answer) : (s.answer cp st bs a).counters = s.counters := rfl

@[simp] theorem State.answer_led (s : State) (cp : CtlPort) (st : Status) (bs : List Byte) (a : Answer) : (s.answer cp st bs a).led = s.led := rfl

@[simp] theorem State.answer_cps (s : State) (cp : CtlPort) (st : Status) (bs : List Byte) (a : Answer) :
    (s.answer cp st bs a).cps = s.cps.set cp (let c := s.cps.get cp; { c with phase := .answering, status := some st, response := bs, answer := a }) := rfl

@[simp] theorem State.answer_holdOwner (s : State) (cp : CtlPort) (st : Status) (bs : List Byte) (a : Answer) : (s.answer cp st bs a).holdOwner = s.holdOwner := rfl

@[simp] theorem State.answer_pending (s : State) (cp : CtlPort) (st : Status) (bs : List Byte) (a : Answer) : (s.answer cp st bs a).pending = s.pending := rfl

/-! ### `State.await` -/

@[simp] theorem State.await_resetLow (s : State) (cp : CtlPort) (a : Answer) : (s.await cp a).resetLow = s.resetLow := rfl

@[simp] theorem State.await_msTime (s : State) (cp : CtlPort) (a : Answer) : (s.await cp a).msTime = s.msTime := rfl

@[simp] theorem State.await_tenthDue (s : State) (cp : CtlPort) (a : Answer) : (s.await cp a).tenthDue = s.tenthDue := rfl

@[simp] theorem State.await_tickBegun (s : State) (cp : CtlPort) (a : Answer) : (s.await cp a).tickBegun = s.tickBegun := rfl

@[simp] theorem State.await_running (s : State) (cp : CtlPort) (a : Answer) : (s.await cp a).running = s.running := rfl

@[simp] theorem State.await_unitNumber (s : State) (cp : CtlPort) (a : Answer) : (s.await cp a).unitNumber = s.unitNumber := rfl

@[simp] theorem State.await_profile (s : State) (cp : CtlPort) (a : Answer) : (s.await cp a).profile = s.profile := rfl

@[simp] theorem State.await_store (s : State) (cp : CtlPort) (a : Answer) : (s.await cp a).store = s.store := rfl

@[simp] theorem State.await_ports (s : State) (cp : CtlPort) (a : Answer) : (s.await cp a).ports = s.ports := rfl

@[simp] theorem State.await_taps (s : State) (cp : CtlPort) (a : Answer) : (s.await cp a).taps = s.taps := rfl

@[simp] theorem State.await_lastTaken (s : State) (cp : CtlPort) (a : Answer) : (s.await cp a).lastTaken = s.lastTaken := rfl

@[simp] theorem State.await_analysing (s : State) (cp : CtlPort) (a : Answer) : (s.await cp a).analysing = s.analysing := rfl

@[simp] theorem State.await_classLevel (s : State) (cp : CtlPort) (a : Answer) : (s.await cp a).classLevel = s.classLevel := rfl

@[simp] theorem State.await_classTimer (s : State) (cp : CtlPort) (a : Answer) : (s.await cp a).classTimer = s.classTimer := rfl

@[simp] theorem State.await_slotTimer (s : State) (cp : CtlPort) (a : Answer) : (s.await cp a).slotTimer = s.slotTimer := rfl

@[simp] theorem State.await_slotIndex (s : State) (cp : CtlPort) (a : Answer) : (s.await cp a).slotIndex = s.slotIndex := rfl

@[simp] theorem State.await_lastTapServed (s : State) (cp : CtlPort) (a : Answer) : (s.await cp a).lastTapServed = s.lastTapServed := rfl

@[simp] theorem State.await_firstDeferred (s : State) (cp : CtlPort) (a : Answer) : (s.await cp a).firstDeferred = s.firstDeferred := rfl

@[simp] theorem State.await_seqCounter (s : State) (cp : CtlPort) (a : Answer) : (s.await cp a).seqCounter = s.seqCounter := rfl

@[simp] theorem State.await_runNumber (s : State) (cp : CtlPort) (a : Answer) : (s.await cp a).runNumber = s.runNumber := rfl

@[simp] theorem State.await_probes (s : State) (cp : CtlPort) (a : Answer) : (s.await cp a).probes = s.probes := rfl

@[simp] theorem State.await_lifeLimit (s : State) (cp : CtlPort) (a : Answer) : (s.await cp a).lifeLimit = s.lifeLimit := rfl

@[simp] theorem State.await_urgent (s : State) (cp : CtlPort) (a : Answer) : (s.await cp a).urgent = s.urgent := rfl

@[simp] theorem State.await_table (s : State) (cp : CtlPort) (a : Answer) : (s.await cp a).table = s.table := rfl

@[simp] theorem State.await_decayTimer (s : State) (cp : CtlPort) (a : Answer) : (s.await cp a).decayTimer = s.decayTimer := rfl

@[simp] theorem State.await_sweep (s : State) (cp : CtlPort) (a : Answer) : (s.await cp a).sweep = s.sweep := rfl

@[simp] theorem State.await_find (s : State) (cp : CtlPort) (a : Answer) : (s.await cp a).find = s.find := rfl

@[simp] theorem State.await_gateReqs (s : State) (cp : CtlPort) (a : Answer) : (s.await cp a).gateReqs = s.gateReqs := rfl

@[simp] theorem State.await_polls (s : State) (cp : CtlPort) (a : Answer) : (s.await cp a).polls = s.polls := rfl

@[simp] theorem State.await_epoch (s : State) (cp : CtlPort) (a : Answer) : (s.await cp a).epoch = s.epoch := rfl

@[simp] theorem State.await_ring (s : State) (cp : CtlPort) (a : Answer) : (s.await cp a).ring = s.ring := rfl

@[simp] theorem State.await_nextNumber (s : State) (cp : CtlPort) (a : Answer) : (s.await cp a).nextNumber = s.nextNumber := rfl

@[simp] theorem State.await_counters (s : State) (cp : CtlPort) (a : Answer) : (s.await cp a).counters = s.counters := rfl

@[simp] theorem State.await_led (s : State) (cp : CtlPort) (a : Answer) : (s.await cp a).led = s.led := rfl

@[simp] theorem State.await_cps (s : State) (cp : CtlPort) (a : Answer) :
    (s.await cp a).cps = s.cps.set cp (let c := s.cps.get cp; { c with phase := .answering, status := none, response := [], answer := a }) := rfl

@[simp] theorem State.await_holdOwner (s : State) (cp : CtlPort) (a : Answer) : (s.await cp a).holdOwner = s.holdOwner := rfl

@[simp] theorem State.await_pending (s : State) (cp : CtlPort) (a : Answer) : (s.await cp a).pending = s.pending := rfl

/-! ### `State.respond` -/

@[simp] theorem State.respond_resetLow (s : State) (cp : CtlPort) (bs : List Byte) (a : Answer) : (s.respond cp bs a).resetLow = s.resetLow := rfl

@[simp] theorem State.respond_msTime (s : State) (cp : CtlPort) (bs : List Byte) (a : Answer) : (s.respond cp bs a).msTime = s.msTime := rfl

@[simp] theorem State.respond_tenthDue (s : State) (cp : CtlPort) (bs : List Byte) (a : Answer) : (s.respond cp bs a).tenthDue = s.tenthDue := rfl

@[simp] theorem State.respond_tickBegun (s : State) (cp : CtlPort) (bs : List Byte) (a : Answer) : (s.respond cp bs a).tickBegun = s.tickBegun := rfl

@[simp] theorem State.respond_running (s : State) (cp : CtlPort) (bs : List Byte) (a : Answer) : (s.respond cp bs a).running = s.running := rfl

@[simp] theorem State.respond_unitNumber (s : State) (cp : CtlPort) (bs : List Byte) (a : Answer) : (s.respond cp bs a).unitNumber = s.unitNumber := rfl

@[simp] theorem State.respond_profile (s : State) (cp : CtlPort) (bs : List Byte) (a : Answer) : (s.respond cp bs a).profile = s.profile := rfl

@[simp] theorem State.respond_store (s : State) (cp : CtlPort) (bs : List Byte) (a : Answer) : (s.respond cp bs a).store = s.store := rfl

@[simp] theorem State.respond_ports (s : State) (cp : CtlPort) (bs : List Byte) (a : Answer) : (s.respond cp bs a).ports = s.ports := rfl

@[simp] theorem State.respond_taps (s : State) (cp : CtlPort) (bs : List Byte) (a : Answer) : (s.respond cp bs a).taps = s.taps := rfl

@[simp] theorem State.respond_lastTaken (s : State) (cp : CtlPort) (bs : List Byte) (a : Answer) : (s.respond cp bs a).lastTaken = s.lastTaken := rfl

@[simp] theorem State.respond_analysing (s : State) (cp : CtlPort) (bs : List Byte) (a : Answer) : (s.respond cp bs a).analysing = s.analysing := rfl

@[simp] theorem State.respond_classLevel (s : State) (cp : CtlPort) (bs : List Byte) (a : Answer) : (s.respond cp bs a).classLevel = s.classLevel := rfl

@[simp] theorem State.respond_classTimer (s : State) (cp : CtlPort) (bs : List Byte) (a : Answer) : (s.respond cp bs a).classTimer = s.classTimer := rfl

@[simp] theorem State.respond_slotTimer (s : State) (cp : CtlPort) (bs : List Byte) (a : Answer) : (s.respond cp bs a).slotTimer = s.slotTimer := rfl

@[simp] theorem State.respond_slotIndex (s : State) (cp : CtlPort) (bs : List Byte) (a : Answer) : (s.respond cp bs a).slotIndex = s.slotIndex := rfl

@[simp] theorem State.respond_lastTapServed (s : State) (cp : CtlPort) (bs : List Byte) (a : Answer) : (s.respond cp bs a).lastTapServed = s.lastTapServed := rfl

@[simp] theorem State.respond_firstDeferred (s : State) (cp : CtlPort) (bs : List Byte) (a : Answer) : (s.respond cp bs a).firstDeferred = s.firstDeferred := rfl

@[simp] theorem State.respond_seqCounter (s : State) (cp : CtlPort) (bs : List Byte) (a : Answer) : (s.respond cp bs a).seqCounter = s.seqCounter := rfl

@[simp] theorem State.respond_runNumber (s : State) (cp : CtlPort) (bs : List Byte) (a : Answer) : (s.respond cp bs a).runNumber = s.runNumber := rfl

@[simp] theorem State.respond_probes (s : State) (cp : CtlPort) (bs : List Byte) (a : Answer) : (s.respond cp bs a).probes = s.probes := rfl

@[simp] theorem State.respond_lifeLimit (s : State) (cp : CtlPort) (bs : List Byte) (a : Answer) : (s.respond cp bs a).lifeLimit = s.lifeLimit := rfl

@[simp] theorem State.respond_urgent (s : State) (cp : CtlPort) (bs : List Byte) (a : Answer) : (s.respond cp bs a).urgent = s.urgent := rfl

@[simp] theorem State.respond_table (s : State) (cp : CtlPort) (bs : List Byte) (a : Answer) : (s.respond cp bs a).table = s.table := rfl

@[simp] theorem State.respond_decayTimer (s : State) (cp : CtlPort) (bs : List Byte) (a : Answer) : (s.respond cp bs a).decayTimer = s.decayTimer := rfl

@[simp] theorem State.respond_sweep (s : State) (cp : CtlPort) (bs : List Byte) (a : Answer) : (s.respond cp bs a).sweep = s.sweep := rfl

@[simp] theorem State.respond_find (s : State) (cp : CtlPort) (bs : List Byte) (a : Answer) : (s.respond cp bs a).find = s.find := rfl

@[simp] theorem State.respond_gateReqs (s : State) (cp : CtlPort) (bs : List Byte) (a : Answer) : (s.respond cp bs a).gateReqs = s.gateReqs := rfl

@[simp] theorem State.respond_polls (s : State) (cp : CtlPort) (bs : List Byte) (a : Answer) : (s.respond cp bs a).polls = s.polls := rfl

@[simp] theorem State.respond_epoch (s : State) (cp : CtlPort) (bs : List Byte) (a : Answer) : (s.respond cp bs a).epoch = s.epoch := rfl

@[simp] theorem State.respond_ring (s : State) (cp : CtlPort) (bs : List Byte) (a : Answer) : (s.respond cp bs a).ring = s.ring := rfl

@[simp] theorem State.respond_nextNumber (s : State) (cp : CtlPort) (bs : List Byte) (a : Answer) : (s.respond cp bs a).nextNumber = s.nextNumber := rfl

@[simp] theorem State.respond_counters (s : State) (cp : CtlPort) (bs : List Byte) (a : Answer) : (s.respond cp bs a).counters = s.counters := rfl

@[simp] theorem State.respond_led (s : State) (cp : CtlPort) (bs : List Byte) (a : Answer) : (s.respond cp bs a).led = s.led := rfl

@[simp] theorem State.respond_cps (s : State) (cp : CtlPort) (bs : List Byte) (a : Answer) :
    (s.respond cp bs a).cps = s.cps.set cp (let c := s.cps.get cp; { c with response := c.response ++ bs, answer := a }) := rfl

@[simp] theorem State.respond_holdOwner (s : State) (cp : CtlPort) (bs : List Byte) (a : Answer) : (s.respond cp bs a).holdOwner = s.holdOwner := rfl

@[simp] theorem State.respond_pending (s : State) (cp : CtlPort) (bs : List Byte) (a : Answer) : (s.respond cp bs a).pending = s.pending := rfl

/-! ### `State.entryFreed` -/

@[simp] theorem State.entryFreed_resetLow (s : State) : (s.entryFreed).resetLow = s.resetLow := rfl

@[simp] theorem State.entryFreed_msTime (s : State) : (s.entryFreed).msTime = s.msTime := rfl

@[simp] theorem State.entryFreed_tenthDue (s : State) : (s.entryFreed).tenthDue = s.tenthDue := rfl

@[simp] theorem State.entryFreed_tickBegun (s : State) : (s.entryFreed).tickBegun = s.tickBegun := rfl

@[simp] theorem State.entryFreed_running (s : State) : (s.entryFreed).running = s.running := rfl

@[simp] theorem State.entryFreed_unitNumber (s : State) : (s.entryFreed).unitNumber = s.unitNumber := rfl

@[simp] theorem State.entryFreed_profile (s : State) : (s.entryFreed).profile = s.profile := rfl

@[simp] theorem State.entryFreed_store (s : State) : (s.entryFreed).store = s.store := rfl

@[simp] theorem State.entryFreed_ports (s : State) : (s.entryFreed).ports = s.ports := rfl

@[simp] theorem State.entryFreed_lastTaken (s : State) : (s.entryFreed).lastTaken = s.lastTaken := rfl

@[simp] theorem State.entryFreed_analysing (s : State) : (s.entryFreed).analysing = s.analysing := rfl

@[simp] theorem State.entryFreed_classLevel (s : State) : (s.entryFreed).classLevel = s.classLevel := rfl

@[simp] theorem State.entryFreed_classTimer (s : State) : (s.entryFreed).classTimer = s.classTimer := rfl

@[simp] theorem State.entryFreed_slotTimer (s : State) : (s.entryFreed).slotTimer = s.slotTimer := rfl

@[simp] theorem State.entryFreed_slotIndex (s : State) : (s.entryFreed).slotIndex = s.slotIndex := rfl

@[simp] theorem State.entryFreed_lastTapServed (s : State) : (s.entryFreed).lastTapServed = s.lastTapServed := rfl

@[simp] theorem State.entryFreed_firstDeferred (s : State) : (s.entryFreed).firstDeferred = s.firstDeferred := rfl

@[simp] theorem State.entryFreed_seqCounter (s : State) : (s.entryFreed).seqCounter = s.seqCounter := rfl

@[simp] theorem State.entryFreed_runNumber (s : State) : (s.entryFreed).runNumber = s.runNumber := rfl

@[simp] theorem State.entryFreed_probes (s : State) : (s.entryFreed).probes = s.probes := rfl

@[simp] theorem State.entryFreed_lifeLimit (s : State) : (s.entryFreed).lifeLimit = s.lifeLimit := rfl

@[simp] theorem State.entryFreed_urgent (s : State) : (s.entryFreed).urgent = s.urgent := rfl

@[simp] theorem State.entryFreed_table (s : State) : (s.entryFreed).table = s.table := rfl

@[simp] theorem State.entryFreed_decayTimer (s : State) : (s.entryFreed).decayTimer = s.decayTimer := rfl

@[simp] theorem State.entryFreed_sweep (s : State) : (s.entryFreed).sweep = s.sweep := rfl

@[simp] theorem State.entryFreed_find (s : State) : (s.entryFreed).find = s.find := rfl

@[simp] theorem State.entryFreed_gateReqs (s : State) : (s.entryFreed).gateReqs = s.gateReqs := rfl

@[simp] theorem State.entryFreed_polls (s : State) : (s.entryFreed).polls = s.polls := rfl

@[simp] theorem State.entryFreed_epoch (s : State) : (s.entryFreed).epoch = s.epoch := rfl

@[simp] theorem State.entryFreed_ring (s : State) : (s.entryFreed).ring = s.ring := rfl

@[simp] theorem State.entryFreed_nextNumber (s : State) : (s.entryFreed).nextNumber = s.nextNumber := rfl

@[simp] theorem State.entryFreed_counters (s : State) : (s.entryFreed).counters = s.counters := rfl

@[simp] theorem State.entryFreed_led (s : State) : (s.entryFreed).led = s.led := rfl

@[simp] theorem State.entryFreed_cps (s : State) : (s.entryFreed).cps = s.cps := rfl

@[simp] theorem State.entryFreed_holdOwner (s : State) : (s.entryFreed).holdOwner = s.holdOwner := rfl

@[simp] theorem State.entryFreed_pending (s : State) : (s.entryFreed).pending = s.pending := rfl

/-! ### `noteAttempts` -/

@[simp] theorem noteAttempts_resetLow (before after : State) : (noteAttempts before after).resetLow = after.resetLow := rfl

@[simp] theorem noteAttempts_msTime (before after : State) : (noteAttempts before after).msTime = after.msTime := rfl

@[simp] theorem noteAttempts_tenthDue (before after : State) : (noteAttempts before after).tenthDue = after.tenthDue := rfl

@[simp] theorem noteAttempts_running (before after : State) : (noteAttempts before after).running = after.running := rfl

@[simp] theorem noteAttempts_unitNumber (before after : State) : (noteAttempts before after).unitNumber = after.unitNumber := rfl

@[simp] theorem noteAttempts_profile (before after : State) : (noteAttempts before after).profile = after.profile := rfl

@[simp] theorem noteAttempts_store (before after : State) : (noteAttempts before after).store = after.store := rfl

@[simp] theorem noteAttempts_ports (before after : State) : (noteAttempts before after).ports = after.ports := rfl

@[simp] theorem noteAttempts_lastTaken (before after : State) : (noteAttempts before after).lastTaken = after.lastTaken := rfl

@[simp] theorem noteAttempts_analysing (before after : State) : (noteAttempts before after).analysing = after.analysing := rfl

@[simp] theorem noteAttempts_classLevel (before after : State) : (noteAttempts before after).classLevel = after.classLevel := rfl

@[simp] theorem noteAttempts_classTimer (before after : State) : (noteAttempts before after).classTimer = after.classTimer := rfl

@[simp] theorem noteAttempts_slotTimer (before after : State) : (noteAttempts before after).slotTimer = after.slotTimer := rfl

@[simp] theorem noteAttempts_slotIndex (before after : State) : (noteAttempts before after).slotIndex = after.slotIndex := rfl

@[simp] theorem noteAttempts_lastTapServed (before after : State) : (noteAttempts before after).lastTapServed = after.lastTapServed := rfl

@[simp] theorem noteAttempts_firstDeferred (before after : State) : (noteAttempts before after).firstDeferred = after.firstDeferred := rfl

@[simp] theorem noteAttempts_seqCounter (before after : State) : (noteAttempts before after).seqCounter = after.seqCounter := rfl

@[simp] theorem noteAttempts_runNumber (before after : State) : (noteAttempts before after).runNumber = after.runNumber := rfl

@[simp] theorem noteAttempts_probes (before after : State) : (noteAttempts before after).probes = after.probes := rfl

@[simp] theorem noteAttempts_lifeLimit (before after : State) : (noteAttempts before after).lifeLimit = after.lifeLimit := rfl

@[simp] theorem noteAttempts_urgent (before after : State) : (noteAttempts before after).urgent = after.urgent := rfl

@[simp] theorem noteAttempts_table (before after : State) : (noteAttempts before after).table = after.table := rfl

@[simp] theorem noteAttempts_decayTimer (before after : State) : (noteAttempts before after).decayTimer = after.decayTimer := rfl

@[simp] theorem noteAttempts_sweep (before after : State) : (noteAttempts before after).sweep = after.sweep := rfl

@[simp] theorem noteAttempts_find (before after : State) : (noteAttempts before after).find = after.find := rfl

@[simp] theorem noteAttempts_gateReqs (before after : State) : (noteAttempts before after).gateReqs = after.gateReqs := rfl

@[simp] theorem noteAttempts_polls (before after : State) : (noteAttempts before after).polls = after.polls := rfl

@[simp] theorem noteAttempts_epoch (before after : State) : (noteAttempts before after).epoch = after.epoch := rfl

@[simp] theorem noteAttempts_ring (before after : State) : (noteAttempts before after).ring = after.ring := rfl

@[simp] theorem noteAttempts_nextNumber (before after : State) : (noteAttempts before after).nextNumber = after.nextNumber := rfl

@[simp] theorem noteAttempts_counters (before after : State) : (noteAttempts before after).counters = after.counters := rfl

@[simp] theorem noteAttempts_led (before after : State) : (noteAttempts before after).led = after.led := rfl

@[simp] theorem noteAttempts_cps (before after : State) : (noteAttempts before after).cps = after.cps := rfl

@[simp] theorem noteAttempts_holdOwner (before after : State) : (noteAttempts before after).holdOwner = after.holdOwner := rfl

@[simp] theorem noteAttempts_pending (before after : State) : (noteAttempts before after).pending = after.pending := rfl

end Sys2Proof.Machine
end

