-- ==== Sys2Proof/Laws/Ops.lean ====
section
/-! SUPPORT. One lemma for each shared operation, saying once everything it can do. -/

namespace Sys2Proof.Machine

/-! ### Outcomes -/

/-- A step of a powered part answers the state computed. -/
theorem powered_next {s : State} (h : s.resetLow = false) (t : State) : powered s t = .next t := by
  simp [powered, h]

/-- A step while RESET_N is low changes nothing. -/
theorem powered_low {s : State} (h : s.resetLow = true) (t : State) : powered s t = .next s := by
  simp [powered, h]

/-- What `powered` can answer: the state computed, or the state unchanged while RESET_N is low. -/
theorem powered_cases {s t u : State} (h : powered s t = .next u) :
    (s.resetLow = false ∧ u = t) ∨ (s.resetLow = true ∧ u = s) := by
  cases hr : s.resetLow with
  | false => left; rw [powered_next hr] at h; exact ⟨rfl, (Host.Outcome.next.inj h).symm⟩
  | true => right; rw [powered_low hr] at h; exact ⟨rfl, (Host.Outcome.next.inj h).symm⟩

/-- What a control command can answer: nothing where it cannot execute, the status of the first check that fails, or
its own effect. -/
theorem command_cases {cp : CtlPort} {s run u : State} {checks : List (Bool × Status)}
    (h : command cp s checks run = .next u) :
    ((s.resetLow = true ∨ (s.cps.get cp).phase ≠ .receiving) ∧ u = s)
      ∨ (∃ st, firstFailure checks = some st ∧ u = s.answer cp st [] .fixed)
      ∨ (firstFailure checks = none ∧ u = run) := by
  rcases powered_cases h with ⟨_, hu⟩ | ⟨hr, hu⟩
  · by_cases hp : (s.cps.get cp).phase = .receiving
    · simp only [hp, if_true] at hu
      cases hf : firstFailure checks with
      | none => rw [hf] at hu; exact .inr (.inr ⟨rfl, hu⟩)
      | some st => rw [hf] at hu; exact .inr (.inl ⟨st, rfl, hu⟩)
    · simp only [hp, if_false] at hu
      exact .inl ⟨.inr hp, hu⟩
  · exact .inl ⟨.inl hr, hu⟩

/-- A command that passes its checks on a receiving control port has its own effect. -/
theorem command_runs {cp : CtlPort} {s : State} {checks : List (Bool × Status)} (hr : s.resetLow = false)
    (hp : (s.cps.get cp).phase = .receiving) (hc : firstFailure checks = none) (run : State) :
    command cp s checks run = .next run := by
  simp [command, powered, hr, hp, hc]

/-- A command that fails a check is answered with the status of the first that fails. -/
theorem command_refused {cp : CtlPort} {s : State} {checks : List (Bool × Status)} {st : Status}
    (hr : s.resetLow = false) (hp : (s.cps.get cp).phase = .receiving) (hc : firstFailure checks = some st)
    (run : State) : command cp s checks run = .next (s.answer cp st [] .fixed) := by
  simp [command, powered, hr, hp, hc]

/-- What the beginning of a response can do: its copies where it waits for them, and nothing where it does not. -/
theorem whenBegins_cases {cp : CtlPort} {s begun u : State} {r : Reply} (h : whenBegins cp s r begun = .next u) :
    (s.resetLow = false ∧ (s.cps.get cp).answer = .waiting r ∧ u = begun) ∨ u = s := by
  rcases powered_cases h with ⟨hr, hu⟩ | ⟨_, hu⟩
  · by_cases hw : (s.cps.get cp).answer = .waiting r
    · left; exact ⟨hr, hw, by simpa [State.waits, hw] using hu⟩
    · right; simpa [State.waits, hw] using hu
  · exact .inr hu

/-- The bytes that a finished response gives: as many as have been shifted out, 0 beyond its last. -/
theorem sent_finished {c : CtlRec} (h : c.answer.unfinished = false) (n : Nat) :
    (c.sent n).length = n ∧ ∀ k < n, (c.sent n).getD k 0 = c.wire.getD k 0 := by
  have hs : c.sent n = (c.wire ++ List.replicate (n - c.wire.length) 0).take n := by simp [CtlRec.sent, h]
  rw [hs]
  refine ⟨by simp; omega, fun k hk => ?_⟩
  simp only [List.getD_eq_getElem?_getD, List.getElem?_take, hk, if_true, List.getElem?_append]
  by_cases hl : k < c.wire.length
  · simp [hl]
  · simp only [hl, if_false, List.getElem?_replicate]
    have : c.wire[k]? = none := by simp; omega
    rw [this]
    split <;> rfl

/-- The bytes that an unfinished response gives: of those copied, as many as have been shifted out. -/
theorem sent_unfinished {c : CtlRec} (h : c.answer.unfinished = true) (n : Nat) : c.sent n = c.wire.take n := by
  simp [CtlRec.sent, h]

/-- What a rise gives of a response that has not been abandoned: the bytes it counts. -/
theorem final_running {c : CtlRec} (h : c.answer ≠ .abandoned) (n : Nat) : c.final n = c.sent n := if_neg h

/-- What a rise gives of an abandoned response: what had gone out, whatever it counts. -/
theorem final_abandoned {c : CtlRec} (h : c.answer = .abandoned) (n : Nat) : c.final n = c.out := if_pos h

/-- An abandoned response gives at its rise exactly what had gone out when it was abandoned. -/
theorem abandon_final (c : CtlRec) (n : Nat) : c.abandon.final n = c.sent (max c.out.length c.knownOut) := rfl

/-- Abandoning a response touches the transaction's output and nothing else of the port. -/
theorem abandon_frame (c : CtlRec) :
    c.abandon = { c with status := none, response := [], answer := .abandoned, out := c.abandon.out } := rfl

/-- What detaching can do to the transaction of control port 1: abandon a READ_INCIDENTS response, or leave it. -/
theorem detach_cases (c : CtlRec) :
    (c.answer.readsIncidents = true ∧ c.detach = { c.abandon with
        unread := 0, lost := 0, flags := c.flags &&& ~~~(EventFlag.incident.bit ||| EventFlag.ringLoss.bit) })
      ∨ (c.answer.readsIncidents = false ∧ c.detach = { c with
        unread := 0, lost := 0, flags := c.flags &&& ~~~(EventFlag.incident.bit ||| EventFlag.ringLoss.bit) }) := by
  unfold CtlRec.detach
  cases h : c.answer.readsIncidents with
  | true => exact .inl ⟨rfl, rfl⟩
  | false => exact .inr ⟨rfl, rfl⟩

/-! ### The analysis path -/

/-- A verdict names the port it is raised against: SELF_LOOP for a return on its own port, else LOOP on the chosen port or
PINNED_LOOP where none is chosen. -/
theorem verdictOf_cases (p q : Port) (delay : Word16) (purpose : Option Purpose) (chosen : Option Port) :
    (p = q ∧ verdictOf p q delay purpose chosen = ⟨some p, .cause .selfLoop none none (some delay) purpose, none⟩)
      ∨ (p ≠ q ∧ chosen = none ∧ verdictOf p q delay purpose chosen = ⟨some p, .pinnedLoop q, none⟩)
      ∨ (p ≠ q ∧ ∃ x, chosen = some x ∧ verdictOf p q delay purpose chosen =
          ⟨some x, .cause .loop (some (if x = p then q else p)) none (some delay) purpose, none⟩) := by
  unfold verdictOf
  by_cases h : p = q
  · exact .inl ⟨h, by simp [h]⟩
  · cases chosen with
    | none => exact .inr (.inl ⟨h, rfl, by simp [h]⟩)
    | some x => exact .inr (.inr ⟨h, x, rfl, by simp [h]⟩)

/-- A PINNED egress port chooses by the ingress port's mode alone. -/
theorem choosePort_pinned {s : State} {p : Port} (h : s.ports[p].mode = .pinned) (q : Port) :
    s.choosePort p q = s.besidePinned q := if_pos h

/-- What an own probe can be judged to be. -/
theorem judge_cases (s : State) (x : Slot) (p : Port) :
    (s.staleReturn x.head p x.ingress = true ∧ s.judge x p = .stale p)
      ∨ (s.staleReturn x.head p x.ingress = false ∧ ∃ verdict ifPinned, s.judge x p = .valid p verdict ifPinned
          ∧ (s.ports[p].mode = .pinned → verdict = ifPinned)) := by
  unfold State.judge
  cases h : s.staleReturn x.head p x.ingress with
  | true => exact .inl ⟨rfl, by simp [h]⟩
  | false => exact .inr ⟨rfl, _, _, by simp [h]; exact ⟨rfl, rfl⟩, fun hp => by rw [choosePort_pinned hp]⟩

/-- A valid return whose egress port is not PINNED at the end of its analysis hands the verdict of its taking. -/
theorem issued_kept {s : State} {p : Port} (h : s.ports[p].mode ≠ .pinned) (verdict ifPinned : GateReq) :
    s.issued p verdict ifPinned = verdict := if_neg h

/-- A valid return whose egress port is PINNED at the end of its analysis hands the verdict against that mode. -/
theorem issued_pinned {s : State} {p : Port} (h : s.ports[p].mode = .pinned) (verdict ifPinned : GateReq) :
    s.issued p verdict ifPinned = ifPinned := if_pos h

/-- The count of a return writes the probe list and nothing else. -/
theorem noteReturn_frame (s : State) (w : Working) : s.noteReturn w = { s with probes := (s.noteReturn w).probes } := by
  obtain ⟨x, f⟩ := w
  cases f with
  | plain => rfl
  | malformed => rfl
  | foreign => rfl
  | stale p =>
    simp only [State.noteReturn, State.countReturn]
    cases s.entryConcerned x.head p <;> rfl
  | valid p verdict ifPinned =>
    simp only [State.noteReturn, State.countReturn]
    cases s.entryConcerned x.head p <;> rfl

/-- What a taking can do: nothing, or the head frame of the FIFO in turn into the working copy. -/
theorem takeFrame_cases (s : State) :
    s.takeFrame = s
      ∨ ∃ t x rest, s.running = true ∧ s.nextFifo = some t ∧ (s.taps.get t).fifo = x :: rest
          ∧ s.takeFrame = { s.updTap t fun y => { y with fifo := rest } with lastTaken := t }.hold x := by
  unfold State.takeFrame
  cases hn : s.nextFifo with
  | none => exact .inl rfl
  | some t =>
    cases hr : s.running with
    | false => exact .inl (by simp)
    | true =>
      cases hf : (s.taps.get t).fifo with
      | nil => exact .inl (by simp [hf])
      | cons x rest => exact .inr ⟨t, x, rest, rfl, rfl, hf, by simp [hf]⟩

/-! ### Requests -/

/-- The request that a turn takes: it is wanted, it is taken out of the queue, as many wanted ones as the turn says stand
before it, and none before it has to be taken first. -/
theorem takeTurn_some {want : GateReq → Bool} {n : Nat} {rs rest : List GateReq} {r : GateReq}
    (h : takeTurn want n rs = some (r, rest)) :
    want r = true ∧ ∃ xs ys, rs = xs ++ r :: ys ∧ rest = xs ++ ys ∧ xs.countP want = n
      ∧ ∀ q ∈ xs, q.before r = false := by
  induction rs generalizing n rest with
  | nil => simp [takeTurn] at h
  | cons q qs ih =>
    by_cases hq : want q = true ∧ n = 0
    · obtain ⟨hw, rfl⟩ := hq
      simp only [takeTurn, hw, beq_self_eq_true, Bool.and_self, if_true, Option.some.injEq, Prod.mk.injEq] at h
      obtain ⟨rfl, rfl⟩ := h
      exact ⟨hw, [], qs, by simp⟩
    · have hc : (want q && n == 0) = false := by simpa using hq
      simp only [takeTurn, hc, Bool.false_eq_true, if_false] at h
      cases ht : takeTurn want (if want q then n - 1 else n) qs with
      | none => simp [ht] at h
      | some x =>
        obtain ⟨r', rest'⟩ := x
        by_cases hb : q.before r' = true
        · simp [ht, hb] at h
        · simp only [ht, hb, Bool.false_eq_true, if_false, Option.some.injEq, Prod.mk.injEq] at h
          obtain ⟨rfl, rfl⟩ := h
          obtain ⟨hw', xs, ys, rfl, rfl, hn, hall⟩ := ih ht
          refine ⟨hw', q :: xs, ys, rfl, rfl, ?_, List.forall_mem_cons.mpr ⟨by simpa using hb, hall⟩⟩
          rw [List.countP_cons, hn]
          by_cases hw : want q = true
          · have : n ≠ 0 := fun h0 => hq ⟨hw, h0⟩
            simp only [hw, if_true]; omega
          · simp [hw]

/-- A wanted request is taken at the turn that the wanted ones before it give it, where none before it has to be taken
first. -/
theorem takeTurn_append {want : GateReq → Bool} {r : GateReq} (hw : want r = true) (xs ys : List GateReq)
    (h : ∀ q ∈ xs, q.before r = false) : takeTurn want (xs.countP want) (xs ++ r :: ys) = some (r, xs ++ ys) := by
  induction xs with
  | nil => simp [takeTurn, hw]
  | cons q qs ih =>
    obtain ⟨hq, hqs⟩ := List.forall_mem_cons.mp h
    by_cases hwq : want q = true
    · simp [takeTurn, hwq, ih hqs, hq]
    · simp [takeTurn, hwq, ih hqs, hq]

/-- What taking a request can do: nothing, or the act on the state with the request out of its queue. -/
theorem takeRequest_cases (s : State) (want : GateReq → Bool) (turn : Nat) (act : State → GateReqKind → State) :
    s.takeRequest want turn act = s
      ∨ ∃ r rest, s.running = true ∧ takeTurn want turn s.gateReqs = some (r, rest)
          ∧ s.takeRequest want turn act = act { s with gateReqs := rest } r.kind := by
  unfold State.takeRequest
  by_cases hr : s.running = true
  · simp only [hr, if_true]
    cases ht : takeTurn want turn s.gateReqs with
    | none => exact .inl rfl
    | some x => exact .inr ⟨x.1, x.2, trivial, rfl, rfl⟩
  · simp [hr]

/-- The largest mark so far bounds what the search for a fresh one gives. -/
theorem freshArrival_bound (rs : List GateReq) (n : Nat) :
    n ≤ rs.foldl (fun n q => max n ((q.arrival.map (· + 1)).getD 0)) n
      ∧ ∀ q ∈ rs, ∀ a, q.arrival = some a → a < rs.foldl (fun n q => max n ((q.arrival.map (· + 1)).getD 0)) n := by
  induction rs generalizing n with
  | nil => simp
  | cons r rs ih =>
    obtain ⟨hle, hall⟩ := ih (max n ((r.arrival.map (· + 1)).getD 0))
    refine ⟨le_trans (le_max_left _ _) hle, List.forall_mem_cons.mpr ⟨fun a ha => ?_, hall⟩⟩
    have : a + 1 ≤ max n ((r.arrival.map (· + 1)).getD 0) := by simp [ha]
    exact lt_of_lt_of_le (Nat.lt_of_succ_le this) hle

/-- The mark of an arrival is one that no waiting request has. -/
theorem freshArrival_fresh (s : State) : ∀ q ∈ s.gateReqs, q.arrival ≠ some s.freshArrival := fun q hq h =>
  absurd ((freshArrival_bound s.gateReqs 0).2 q hq _ h) (lt_irrefl _)

/-- Two causes that are not crossings of one arrival never have to wait for each other. -/
theorem before_causes {r q : GateReq} (hr : r.kind.fact = none) (ha : r.arrival = none ∨ r.arrival ≠ q.arrival) :
    r.before q = false := by
  unfold GateReq.before
  rcases ha with ha | ha <;> simp [hr, ha]

/-! ### Serving attempts -/

/-- Noting attempts raises the two attempt counts and changes nothing else. -/
theorem noteAttempts_eq (before after : State) :
    noteAttempts before after = { after with
      taps := ⟨{ after.taps.a with attempts := after.taps.a.attempts + newAttempts before after .a },
        { after.taps.b with attempts := after.taps.b.attempts + newAttempts before after .b }⟩ } := rfl

/-- While the engine is HELD no attempt is made. -/
theorem newAttempts_held {before after : State} (hb : before.running = false) (ha : after.running = false)
    (t : TapId) : newAttempts before after t = 0 := by
  simp [newAttempts, State.servable, State.eligibleOn, hb, ha]

/-! ### The incident ring -/

/-- A record request makes one record with the ring's number and the ms time; 32 held records lose the oldest. -/
theorem record_ring (s : State) (r : IncidentReq) :
    (s.record r).ring = (if Config.ringRecords ≤ s.ring.length then s.ring.tail else s.ring) ++ [s.incidentOf r] := by
  unfold State.record
  by_cases h : Config.ringRecords ≤ s.ring.length <;> simp [h]

/-- A report either leaves the state or stamps the port and makes a record. -/
theorem report_cases (s : State) (p : Port) (r : IncidentReq) :
    (s.reportDue p = false ∧ s.report p r = s)
      ∨ (s.reportDue p = true
          ∧ s.report p r = (s.updPort p fun x => { x with lastReport := some s.msTime }).record r) := by
  unfold State.report
  cases s.reportDue p <;> simp

/-! ### The first check that fails -/

/-- Checks that all pass. -/
theorem firstFailure_none {checks : List (Bool × Status)} :
    firstFailure checks = none ↔ ∀ c ∈ checks, c.1 = false := by
  induction checks with
  | nil => simp [firstFailure]
  | cons c cs ih =>
    obtain ⟨b, st⟩ := c
    cases b <;> simp [firstFailure, ih]

/-! ### The engine -/

/-- The FIND state after a restart aborts a scan; every other part of the state but the starter's flags stays. -/
theorem abortFind_frame (s : State) : s.abortFind = { s with find := s.abortFind.find, cps := s.abortFind.cps } := by
  unfold State.abortFind
  split <;> rfl

/-! ### Manual changes and retirements -/

/-- A manual change makes a record exactly where mode, state or penalty changed. -/
theorem manual_cases (before after : State) (p : Port) (a : IncAction) :
    State.manual before after p a = after
      ∨ State.manual before after p a = after.record (manualReq p after.ports[p] a) := by
  unfold State.manual
  dsimp only
  split
  · exact .inl rfl
  · exact .inr rfl

/-- An entry that is not in the list retires without effect. -/
theorem retireUnsent_absent {s : State} {sequence : Word16}
    (h : ∀ e ∈ s.probes, e.sequence ≠ sequence) : s.retireUnsent sequence = s := by
  unfold State.retireUnsent
  have : s.probes.find? (fun e => decide (e.sequence = sequence)) = none := by simpa using h
  rw [this]

/-! ### Folds over the state -/

/-- A delivery writes the port records and nothing else. -/
theorem deliver_frame (s : State) (samples : List (Option Port × GateCode)) :
    s.deliver samples = { s with ports := (s.deliver samples).ports } := by
  induction samples generalizing s with
  | nil => rfl
  | cons x xs ih =>
    obtain ⟨_ | p, code⟩ := x
    · exact ih s
    · exact ih (s.updPort p fun r => { r with delivered := code })

/-- Placing link bits writes port records and hands requests, and nothing else. -/
theorem placeLinks_frame (s : State) (l : TapId) (links : BitVec 32) :
    s.placeLinks l links = { s with
      ports := (s.placeLinks l links).ports, gateReqs := (s.placeLinks l links).gateReqs } := by
  unfold State.placeLinks
  induction fabricPorts generalizing s with
  | nil => rfl
  | cons f fs ih =>
    simp only [List.foldl_cons]
    rw [ih]
    cases s.profile.mapFabric l f with
    | none => rfl
    | some p =>
      unfold State.placeLink
      dsimp only
      split
      · rfl
      · split <;> rfl

end Sys2Proof.Machine
end

