-- ==== Sys2Proof/Laws/Table.lean ====
section
/-! SUPPORT. The fingerprint table as a memory of places: what a place reads after a write, and that every operation
on the table keeps its canonical form. -/

namespace Sys2Proof.Machine

/-! ### Reading after writing -/

/-- The place written reads the entry written. -/
theorem placeGet_put_self (t : List (Nat × FpEntry)) (k : Nat) (e : FpEntry) :
    placeGet (placePut t k e) k = some e := by
  induction t with
  | nil => simp [placePut, placeGet]
  | cons x xs ih =>
    obtain ⟨j, y⟩ := x
    simp only [placePut]
    split
    · simp [placeGet]
    · split
      · simp [placeGet]
      · rename_i h1 h2
        have : ¬ j = k := fun h => h2 h.symm
        simp [placeGet, this, ih]

/-- Every other place reads as before. -/
theorem placeGet_put_other (t : List (Nat × FpEntry)) {k j : Nat} (h : j ≠ k) (e : FpEntry) :
    placeGet (placePut t k e) j = placeGet t j := by
  induction t with
  | nil => simp [placePut, placeGet, Ne.symm h]
  | cons x xs ih =>
    obtain ⟨i, y⟩ := x
    simp only [placePut]
    split
    · simp [placeGet, Ne.symm h]
    · split
      · rename_i h1 h2; subst h2
        simp [placeGet, Ne.symm h]
      · simp [placeGet, ih]

/-! ### The canonical form -/

/-- The canonical form said of all entries at once. -/
theorem tableWf_iff (t : List (Nat × FpEntry)) :
    tableWf t = true ↔ t.Pairwise (fun x y => x.1 < y.1) ∧ ∀ x ∈ t, x.1 < Config.tablePlaces := by
  induction t with
  | nil => simp [tableWf]
  | cons x xs ih =>
    obtain ⟨k, e⟩ := x
    cases xs with
    | nil => simp [tableWf]
    | cons y ys =>
      obtain ⟨k', e'⟩ := y
      simp only [tableWf, Bool.and_eq_true, decide_eq_true_eq, ih, List.pairwise_cons, List.mem_cons,
        forall_eq_or_imp]
      constructor
      · rintro ⟨hk, ⟨h1, h2⟩, h3, h4⟩
        exact ⟨⟨⟨hk, fun z hz => lt_trans hk (h1 z hz)⟩, h1, h2⟩, lt_trans hk h3, h3, h4⟩
      · rintro ⟨⟨⟨hk, _⟩, h1, h2⟩, _, h3, h4⟩
        exact ⟨hk, ⟨h1, h2⟩, h3, h4⟩

/-- The entries after a write: the one written and the old ones of other places. -/
theorem mem_placePut {t : List (Nat × FpEntry)} {k : Nat} {e : FpEntry} {x : Nat × FpEntry}
    (h : x ∈ placePut t k e) : x = (k, e) ∨ x ∈ t := by
  induction t with
  | nil => simpa [placePut] using h
  | cons y ys ih =>
    obtain ⟨j, z⟩ := y
    simp only [placePut] at h
    split at h
    · simpa using h
    · split at h
      · rcases List.mem_cons.mp h with h | h
        · exact .inl h
        · exact .inr (List.mem_cons_of_mem _ h)
      · rcases List.mem_cons.mp h with h | h
        · exact .inr (h ▸ List.mem_cons_self ..)
        · exact (ih h).imp id (List.mem_cons_of_mem _)

/-- A write within the table keeps the canonical form. -/
theorem tableWf_put {t : List (Nat × FpEntry)} {k : Nat} (h : tableWf t = true) (hk : k < Config.tablePlaces)
    (e : FpEntry) : tableWf (placePut t k e) = true := by
  rw [tableWf_iff] at h ⊢
  refine ⟨?_, fun x hx => ?_⟩
  · obtain ⟨hp, -⟩ := h
    induction t with
    | nil => simp [placePut]
    | cons y ys ih =>
      obtain ⟨j, z⟩ := y
      rw [List.pairwise_cons] at hp
      simp only [placePut]
      split
      · rename_i hlt
        refine List.pairwise_cons.mpr ⟨fun x hx => ?_, List.pairwise_cons.mpr hp⟩
        rcases List.mem_cons.mp hx with rfl | hx
        · exact hlt
        · exact lt_trans hlt (hp.1 x hx)
      · split
        · rename_i heq; subst heq
          exact List.pairwise_cons.mpr hp
        · rename_i h1 h2
          refine List.pairwise_cons.mpr ⟨fun x hx => ?_, ih hp.2⟩
          rcases mem_placePut hx with rfl | hx
          · exact lt_of_le_of_ne (not_lt.mp h1) (Ne.symm h2)
          · exact hp.1 x hx
  · rcases mem_placePut hx with rfl | hx
    · exact hk
    · exact h.2 x hx

/-- Freeing places keeps the canonical form: the sweep, and a write of We. -/
theorem tableWf_filter {t : List (Nat × FpEntry)} (h : tableWf t = true) (keep : Nat × FpEntry → Bool) :
    tableWf (t.filter keep) = true := by
  rw [tableWf_iff] at h ⊢
  exact ⟨h.1.sublist List.filter_sublist, fun x hx => h.2 x (List.mem_of_mem_filter hx)⟩

/-- A sweep visit keeps the canonical form. -/
theorem tableWf_sweepVisit {s : State} (h : tableWf s.table = true) : tableWf s.sweepVisit.table = true :=
  tableWf_filter h _

/-- A write of We keeps the canonical form. -/
theorem tableWf_freeStaleEntries {s : State} (h : tableWf s.table = true) :
    tableWf s.freeStaleEntries.table = true := tableWf_filter h _

/-- The places of a set lie in the table. -/
theorem setPlaces_lt {set place : Nat} (h : set < 256) (hp : place ∈ setPlaces set) : place < Config.tablePlaces := by
  simp only [setPlaces, List.mem_cons, List.not_mem_nil, or_false] at hp
  simp only [Config.tablePlaces]
  omega

/-- The table at reset is in canonical form. -/
theorem tableWf_reset : tableWf State.reset.table = true := rfl

end Sys2Proof.Machine
end

