-- ==== Sys2Proof/Laws/Time.lean ====
section
/-! SUPPORT. What the beginning of a tick leaves as it was, and the two outcomes of a class interval expiry. -/

namespace Sys2Proof.Machine

/-- A tick that begins while the engine is HELD moves the clock alone. -/
theorem beginTick_held {s : State} (h : s.running = false) : s.beginTick = s.tickClock := by simp [State.beginTick, h]

/-- A tick that begins while the engine is RUNNING moves the clock and the timers. -/
theorem beginTick_running {s : State} (h : s.running = true) : s.beginTick = s.tickClock.tickTimers := by
  simp [State.beginTick, h]

@[simp] theorem State.beginTick_resetLow (s : State) : s.beginTick.resetLow = s.resetLow := by unfold State.beginTick; split <;> rfl

@[simp] theorem State.beginTick_tickBegun (s : State) : s.beginTick.tickBegun = s.tickBegun := by unfold State.beginTick; split <;> rfl

@[simp] theorem State.beginTick_running (s : State) : s.beginTick.running = s.running := by unfold State.beginTick; split <;> rfl

@[simp] theorem State.beginTick_unitNumber (s : State) : s.beginTick.unitNumber = s.unitNumber := by unfold State.beginTick; split <;> rfl

@[simp] theorem State.beginTick_profile (s : State) : s.beginTick.profile = s.profile := by unfold State.beginTick; split <;> rfl

@[simp] theorem State.beginTick_taps (s : State) : s.beginTick.taps = s.taps := by unfold State.beginTick; split <;> rfl

@[simp] theorem State.beginTick_lastTaken (s : State) : s.beginTick.lastTaken = s.lastTaken := by unfold State.beginTick; split <;> rfl

@[simp] theorem State.beginTick_analysing (s : State) : s.beginTick.analysing = s.analysing := by unfold State.beginTick; split <;> rfl

@[simp] theorem State.beginTick_classLevel (s : State) : s.beginTick.classLevel = s.classLevel := by unfold State.beginTick; split <;> rfl

@[simp] theorem State.beginTick_slotIndex (s : State) : s.beginTick.slotIndex = s.slotIndex := by unfold State.beginTick; split <;> rfl

@[simp] theorem State.beginTick_lastTapServed (s : State) : s.beginTick.lastTapServed = s.lastTapServed := by unfold State.beginTick; split <;> rfl

@[simp] theorem State.beginTick_firstDeferred (s : State) : s.beginTick.firstDeferred = s.firstDeferred := by unfold State.beginTick; split <;> rfl

@[simp] theorem State.beginTick_seqCounter (s : State) : s.beginTick.seqCounter = s.seqCounter := by unfold State.beginTick; split <;> rfl

@[simp] theorem State.beginTick_runNumber (s : State) : s.beginTick.runNumber = s.runNumber := by unfold State.beginTick; split <;> rfl

@[simp] theorem State.beginTick_probes (s : State) : s.beginTick.probes = s.probes := by unfold State.beginTick; split <;> rfl

@[simp] theorem State.beginTick_urgent (s : State) : s.beginTick.urgent = s.urgent := by unfold State.beginTick; split <;> rfl

@[simp] theorem State.beginTick_table (s : State) : s.beginTick.table = s.table := by unfold State.beginTick; split <;> rfl

@[simp] theorem State.beginTick_sweep (s : State) : s.beginTick.sweep = s.sweep := by unfold State.beginTick; split <;> rfl

@[simp] theorem State.beginTick_find (s : State) : s.beginTick.find = s.find := by unfold State.beginTick; split <;> rfl

@[simp] theorem State.beginTick_gateReqs (s : State) : s.beginTick.gateReqs = s.gateReqs := by unfold State.beginTick; split <;> rfl

@[simp] theorem State.beginTick_epoch (s : State) : s.beginTick.epoch = s.epoch := by unfold State.beginTick; split <;> rfl

@[simp] theorem State.beginTick_ring (s : State) : s.beginTick.ring = s.ring := by unfold State.beginTick; split <;> rfl

@[simp] theorem State.beginTick_nextNumber (s : State) : s.beginTick.nextNumber = s.nextNumber := by unfold State.beginTick; split <;> rfl

@[simp] theorem State.beginTick_counters (s : State) : s.beginTick.counters = s.counters := by unfold State.beginTick; split <;> rfl

@[simp] theorem State.beginTick_cps (s : State) : s.beginTick.cps = s.cps := by unfold State.beginTick; split <;> rfl

@[simp] theorem State.beginTick_holdOwner (s : State) : s.beginTick.holdOwner = s.holdOwner := by unfold State.beginTick; split <;> rfl

@[simp] theorem State.beginTick_pending (s : State) : s.beginTick.pending = s.pending := by unfold State.beginTick; split <;> rfl

/-- No tick that begins makes a port a candidate or unmakes one (R52). -/
@[simp] theorem PortRec.tick_candidate (r : PortRec) (pr : Profile) : (r.tick pr).candidate = r.candidate := rfl

/-- The timers count and the level of a port stays, until the drain (R34). -/
@[simp] theorem PortRec.tick_level (r : PortRec) (pr : Profile) : (r.tick pr).level = r.level := rfl

/-- The beginning of a tick leaves every port a candidate that is one, with its level (R52). -/
theorem beginTick_ports (s : State) (p : Port) :
    s.beginTick.ports[p].candidate = s.ports[p].candidate ∧ s.beginTick.ports[p].level = s.ports[p].level := by
  unfold State.beginTick
  split
  · simp [State.tickTimers, State.tickClock]
  · exact ⟨rfl, rfl⟩

/-- The top contributor is the same before and after the beginning of a tick (R52). -/
theorem topContributor_beginTick (s : State) : s.beginTick.topContributor = s.topContributor := by
  unfold State.topContributor
  simp only [(beginTick_ports s _).1, (beginTick_ports s _).2]

/-- A class interval expiry changes nothing, stops the timer, or lets the class meter act and restarts it (R53). -/
theorem classExpiry_cases (s : State) :
    ((s.running = false ∨ s.classTimer ≠ some 0) ∧ s.classExpiry = s)
      ∨ (s.running = true ∧ s.classTimer = some 0 ∧ s.classLevel < s.profile.cc ∧ s.classExpiry = { s with classTimer := none })
      ∨ (s.running = true ∧ s.classTimer = some 0 ∧ s.profile.cc ≤ s.classLevel
        ∧ s.classExpiry = { s.classChoose with classTimer := some s.profile.ti }) := by
  unfold State.classExpiry
  cases hr : s.running <;> by_cases hc : s.classTimer = some 0 <;> by_cases hl : s.profile.cc ≤ s.classLevel <;>
    simp [hc, hl, Nat.lt_of_not_le]

end Sys2Proof.Machine
end

