-- ==== Sys2Proof/Tests/Slice0.lean ====
section
/-! SUPPORT. Tests of the model against the manual's words and worked examples, and for each statement of
Certificates/Slice0/Obligations.lean with hypotheses a state and operands that meet them. -/

namespace Sys2Proof.Machine

open Sys2Proof.Spec

/-! ### Small states -/

/-- The state that a command leaves. -/
def after (c : Instr) (s : State) : State :=
  match exec c s with
  | .next t => t
  | .fault _ => s
  | .refused _ => s

/-- A command that answers a next state answers that one. -/
theorem exec_after {c : Instr} {s : State} (h : isNext (exec c s) = true) : exec c s = .next (after c s) := by
  unfold after
  cases hx : exec c s with
  | next t => rfl
  | fault f => rw [hx] at h; cases h
  | refused r => rw [hx] at h; cases h

/-- A step of a waiting command that answers a next state is that command's. -/
theorem step_after {c : Instr} {rest : List Instr} {s : State} (hp : s.pending = c :: rest)
    (h : isNext (exec c { s with pending := rest }) = true) : step s = .next (after c { s with pending := rest }) := by
  unfold step
  rw [hp]
  exact exec_after h

/-- The part with a blank profile memory, its engine RUNNING (R179). -/
def started : State := { State.reset with
  running := true, store := ⟨.ready, .blank, false, .none, none⟩, slotTimer := some 32, decayTimer := some 1000 }

/-- The part with its engine HELD after a restart (R181). -/
def restarted : State := { State.reset with store := ⟨.ready, .blank, false, .none, none⟩, runNumber := 1 }

/-- Both control ports RECEIVING (R168). -/
def armed (s : State) : State := { s with
  cps := ⟨{ s.cps.cp0 with phase := .receiving }, { s.cps.cp1 with phase := .receiving }⟩ }

/-- A port record put into the state. -/
def withPort (s : State) (p : Port) (r : PortRec) : State := { s with ports := s.ports.set p r }

/-- A port in OPEN with its link UP since ms 0. -/
def openPort : PortRec := { PortRec.reset with
  linkUp := true, lastLinkUp := some 0, state := .opened, delivered := .opened, goodTimer := ⟨true, 7, false⟩ }

/-- A tap whose link is UP. -/
def upTap : TapRec := { TapRec.reset with linkUp := true }

/-- The engine RUNNING with port 5 OPEN and both taps UP. -/
def room : State := { withPort started 5 openPort with taps := ⟨upTap, upTap⟩ }

/-- A request waits for port 5 behind one of port 7, before another of its own kind. -/
def waits (s : State) (k : GateReqKind) : State := { s with
  gateReqs := [⟨some 7, .watch, none⟩, ⟨some 5, k, none⟩, ⟨some 5, k, none⟩] }

/-- The requests that wait besides the one taken. -/
def waiting (k : GateReqKind) : List GateReq := [⟨some 7, .watch, none⟩, ⟨some 5, k, none⟩]

/-- Requests of port 5 of one arrival wait in this order. -/
def queued (s : State) (ks : List GateReqKind) : State := { s with gateReqs := ks.map (⟨some 5, ·, some 4⟩) }

/-- A broadcast copy of fabric length 64 from a fabric port. -/
def broadcast (f : Byte) : TapFrame :=
  ⟨[0xFF, 0xFF, 0xFF, 0xFF, 0xFF, 0xFF, 2, 0, 0, 0, 0, 1, 0xB4, 0xD0, 0, f, 8, 0] ++ List.replicate 50 0, 68, true⟩

/-- A record of the ring. -/
def someRecord (n : Word16) : Incident := ⟨n, 0, .manual, some 3, none, .setHeld, some .shut, 0, 0, 0, 0, none, none⟩

/-- A response under way on control port 0. -/
def answering (s : State) (a : Answer) : State := { s with
  cps := { s.cps with cp0 := { s.cps.cp0 with phase := .answering, status := some .ok, answer := a } } }

/-! ### Well-formedness: one ill-formed term for each check -/

theorem test_wf_refuses_a_long_image : Instr.wf (.loadEnd (List.replicate 257 0)) = false := by decide +kernel
theorem test_wf_refuses_missing_head_bytes : Instr.wf (.tapFrame .a ⟨[0xFF], 68, true⟩ .portsFirst) = false := by decide
theorem test_wf_refuses_a_known_byte_as_unknown : Instr.wf (.unknownCommand .cp0 0x16) = false := by decide
theorem test_wf_refuses_mode_bytes_of_other_rows :
    Instr.wf (.setModeAuto .cp0 3 1) = false ∧ Instr.wf (.setModeAuto .cp0 3 2) = false := by decide
theorem test_wf_refuses_missing_values : Instr.wf (.writeProfile .cp0 0 1 [1, 2, 3]) = false := by decide
theorem test_wf_refuses_a_place_outside_the_table : Instr.wf (.find (.scanTo 1025)) = false := by decide

/-! ### The bytes of a transaction (R168, R169, R185) -/

theorem test_words_spell_no_command : decodeTableWord 8 0x16 = none := by decide
theorem test_first_and_last_command_byte :
    decodeTransaction .cp1 [0x01] = some (.readIdent (.command .cp1)) ∧ decodeTransaction .cp0 [0x16] = some (.releaseEngine .cp0)
      ∧ decodeTransaction .cp0 [0x17] = some (.unknownCommand .cp0 0x17)
      ∧ decodeTransaction .cp0 [0x00] = some (.unknownCommand .cp0 0x00) := by decide
theorem test_set_mode_by_its_mode_byte :
    decodeTransaction .cp0 [0x05, 47, 0] = some (.setModeAuto .cp0 47 0)
      ∧ decodeTransaction .cp0 [0x05, 47, 1] = some (.setModePinned .cp0 47)
      ∧ decodeTransaction .cp0 [0x05, 47, 2] = some (.setModeHeld .cp0 47)
      ∧ decodeTransaction .cp0 [0x05, 47] = none := by decide
theorem test_mask_high_byte_first : decodeTransaction .cp1 [0x0D, 0x80, 0x40] = some (.writeMask .cp1 0x8040) := by decide
theorem test_profile_values_by_width :
    decodeTransaction .cp0 [0x11, 0x55, 2, 0, 64, 0, 0, 0x9C, 0x40] = some (.writeProfile .cp0 85 2 [0, 64, 0, 0, 0x9C, 0x40])
      ∧ decodeTransaction .cp0 [0x11, 0x55, 2, 0, 64, 0, 0, 0x9C] = none := by decide

/-- R168, R185: bits most significant first, a byte partly shifted in is none. -/
theorem test_bits_of_a_transaction :
    byteBits 0x16 = [false, false, false, true, false, true, true, false]
      ∧ bytesOfBits (byteBits 0x16 ++ byteBits 0xA3 ++ [true, true]) = [0x16, 0xA3] := by decide
/-- R144, R185: the link bit of fabric port 0 is received first. -/
theorem test_bits_of_a_write_phase :
    writeLinks 0x80000001 = 0x80000001 ∧ writeLinks 0x40000000 = 0x2 ∧ writeLinks 0x00000100 = 0x800000 := by decide +kernel
/-- R145, R185: the code of fabric port 0 is sent first, two bits each, 01 for CUT and 10 for SHUT. -/
theorem test_bits_of_a_read_phase :
    readBits ((none, .cut) :: (none, .shut) :: List.replicate 30 (none, .opened)) = 0x6000000000000000 := by decide
/-- R166, R185: port 47 leads on the LED chain. -/
theorem test_bits_of_a_refresh : ledBits (.blink :: List.replicate 46 .off ++ [.steady]) = 0x800000000000000000000001 := by decide

/-! ### Worked values of the manual -/

/-- Section 2 example: a copy of fabric length 64 weighs 2 FU. -/
theorem test_frame_weighs_two :
    (after (.tapFrame .a (broadcast 5) .portsFirst) room).ports[(5 : Port)].level = 2
      ∧ (after (.tapFrame .a (broadcast 5) .portsFirst) room).classLevel = 2
      ∧ (after (.tapFrame .a (broadcast 5) .portsFirst) room).counters[(0 : Fin 4)].count = 1 := by decide +kernel
/-- 2.2: a frame of 19 bytes is a TAP_ERROR, one with bit 7 of the tag's third byte set a TAG_ERROR. -/
theorem test_receive_checks :
    receiveCheck State.reset.profile .a { broadcast 5 with length := 19 } = .tapError
      ∧ receiveCheck State.reset.profile .a { broadcast 5 with bytes := (broadcast 5).bytes.set 14 0x80 } = .tagError
      ∧ receiveCheck State.reset.profile .a (broadcast 24) = .unmapped
      ∧ receiveCheck State.reset.profile .b (broadcast 23) = .accepted 47 := by decide +kernel
/-- R10: the worked window {20, 32, 40} is stored as {20, 8, 40}. -/
theorem test_window_clamped_as_worked : Window.clamped ⟨20, 32, 40⟩ = ⟨20, 8, 40⟩ := by decide
/-- Section 11.4: the identity formed from unit number 3A 00 12 7C 45. -/
theorem test_identity_from_the_unit_number :
    State.reset.profile.chassisNumber = 0x00127C45 ∧ State.reset.profile.chassisAddress = 0x023A00127C45 := by decide
/-- 7.4: holds of 40, 80, 160 … 2560 tenths for penalties 1 to 7 with the defaults. -/
theorem test_holds_double : [1, 2, 3, 4, 5, 6, 7].map (holdFor 40 6000) = [40, 80, 160, 320, 640, 1280, 2560] := by decide
/-- Section 7 example: STORM_SHUT on a port in CUT with penalty 0 gives SHUT, penalty 1, hold 40, and a record. -/
theorem test_storm_shut_as_worked :
    let s := after (.causeTaken 5 ⟨.stormShut, 0⟩) (waits (withPort started 5 { openPort with state := .cut, goodTimer := .stopped })
      (.cause .stormShut none (some 12000) none none))
    s.ports[(5 : Port)].state = .shut ∧ s.ports[(5 : Port)].penalty = 1 ∧ s.ports[(5 : Port)].hold = 40
      ∧ s.ports[(5 : Port)].backlog = 0 ∧ s.ring.map (·.level) = [12000] ∧ s.ring.map (·.action) = [.shut]
      ∧ s.cps.cp1.has .incident = true := by decide +kernel
/-- R119, R125: link-up of an AUTO port in DOWN gives LISTEN with an urgent request. -/
theorem test_link_up_listens :
    let s := after (.linkUp 5) (waits (withPort started 5 { PortRec.reset with linkUp := true }) .linkUp)
    s.ports[(5 : Port)].state = .listen ∧ s.ports[(5 : Port)].listenTimer = ⟨true, 0, false⟩ ∧ s.urgent = [⟨5, false⟩] := by
  decide +kernel
/-- R90: of two AUTO ports the one whose cable is newer, and a port never seen UP before any other. -/
theorem test_loop_picks_the_newer_cable :
    let r := { openPort with lastLinkUp := some 100 }
    (withPort { room with msTime := 200 } 9 r).choosePort 5 9 = some 9
      ∧ (withPort { room with msTime := 200 } 9 r).choosePort 5 30 = some 30
      ∧ (withPort room 9 openPort).choosePort 9 5 = some 9 := by decide +kernel
/-- R147: three closings in one transaction step the epoch once. -/
theorem test_one_epoch_step_a_transaction :
    let s := { started with polls := { started.polls with
      a := { PollRec.reset with phase := .read [(some 0, .shut), (some 1, .shut), (none, .opened), (some 2, .shut)] } } }
    (after (.pollComplete .a) s).epoch = 1 ∧ (after (.pollComplete .a) s).counters[(3 : Fin 4)].count = 3 := by decide +kernel
/-- R144: the check is the number of 1 bits modulo 16. -/
theorem test_link_check : linkCheck 0xFFFFFFFF = 0 ∧ linkCheck 0x800003 = 3 := by decide
/-- R98: set index in the least significant 8 bits, tag in the other 24. -/
theorem test_fingerprint_splits : fpSet 0x12345678 = 0x78 ∧ fpTag 0x12345678 = 0x123456 := by decide
/-- R97: the register's steps on sixty zero bytes and on the bytes 0 to 59, computed outside the model. -/
theorem test_fingerprint_of_sixty_bytes :
    fingerprint (List.replicate 96 0) = 0x04128908 ∧ fingerprint ((List.range 96).map (BitVec.ofNat 8 ·)) = 0xB0EC7FEE := by
  decide +kernel
/-- R163: a flag whose event recurs between capture and clearing stays set. -/
theorem test_recurring_flag_stays :
    let c := (CtlRec.reset.raise .incident).raise .tapDown
    let d := ({ c with recurred := 0 }.raise .tapDown).clearCaptured c.flags
    d.has .incident = false ∧ d.has .tapDown = true := by decide
/-- R178: a memory that answers with 0xFFFF is BLANK, one that never answers ABSENT, one that stops later ABSENT. -/
theorem test_load_results :
    judgeImage [0xFF, 0xFF] = .blank ∧ judgeImage [] = .absent ∧ judgeImage [0x52] = .absent
      ∧ judgeImage (List.replicate 100 0x52) = .absent ∧ judgeImage (List.replicate 256 0x52) = .bad := by
  decide +kernel
/-- R69: the counter is moved past numbers in use. -/
theorem test_sequence_skips_numbers_in_use : freshSequence [7, 9, 8] 3 7 = 10 := by decide
/-- R64: round robin from the port after the last served, 47 going to 0. -/
theorem test_round_robin_wraps : (roundRobin 46).take 3 = [47, 0, 1] ∧ (roundRobin 47).take 2 = [0, 1] := by decide
/-- R176: BREAK_HOLD tells control port 1 whose hold it takes. -/
theorem test_break_hold_tells_cp1 :
    let s := after (.breakHold .cp0) (armed { started with holdOwner := some .cp1 })
    s.holdOwner = none ∧ s.cps.cp1.has .holdBroken = true ∧ s.cps.cp0.has .holdBroken = false := by decide +kernel
/-- R131: CUT is recorded and keeps the backlog; R62: it stays probe-eligible. -/
theorem test_cut_keeps_backlog : (openPort.toCut).backlog = 3 ∧ (openPort.toCut).state.probed = true := by decide
/-- R28: the departed probe's entry is SENT and counted on its egress port. -/
theorem test_departure_marks_sent :
    let e : ProbeEntry := ⟨1201, 5, 0, 0, .routine, .queued, 0, 0⟩
    let q : TxProbe := ⟨1201, 5, [], false⟩
    let s := { room with probes := [e], taps := { room.taps with a := { upTap with queue := [q], sending := .head } } }
    (after (.probeDeparture .a) s).probes.map (·.condition) = [.sent] ∧ (after (.probeDeparture .a) s).taps.a.queue = [] := by
  decide +kernel

/-- R168: a count made between execution and the beginning of the response shows in it. -/
theorem test_counter_copied_when_the_response_begins :
    let s := after (.readCounter .cp0 (.command 0)) (armed room)
    let t := after (.readCounter .cp0 .begins) (s.census .floodFrames (some 5) 7)
    s.cps.cp0.response = [] ∧ s.cps.cp0.status = some .ok ∧ t.cps.cp0.response = [0, 0xFF, 0, 0, 0, 7]
      ∧ (after (.chipSelectRise ⟨.cp0, 1⟩) t).cps.cp0.out = [0]
      ∧ (after (.chipSelectRise ⟨.cp0, 9⟩) t).cps.cp0.out = [0, 0, 0, 0xFF, 0, 0, 0, 7, 0] := by decide +kernel
/-- R115, R170: a scan that completes before the response begins gives OK and the result, not PENDING. -/
theorem test_pending_decided_when_the_response_begins :
    let s := after (.readFind (.command .cp1)) (armed { room with find := .scanning 0 ⟨none, .cp0, 0, none, []⟩ })
    s.cps.cp1.status = none ∧ (after (.readFind (.begins .cp1)) s).cps.cp1.status = some .pending
      ∧ (after (.readFind (.begins .cp1)) (after .findComplete s)).cps.cp1.response = [2, 0xFF, 0, 0, 0, 0xFF, 0xFF, 0] := by
  decide +kernel
/-- R25, R26, R95: a restart abandons the frame under analysis, uncounted; a tap link loss leaves it to its end. -/
theorem test_restart_abandons_the_frame_under_analysis :
    let x : Slot := ⟨headBytes (broadcast 5), 64, 5, 0⟩
    let s := after .analysisTake { armed room with taps := { room.taps with a := { upTap with fifo := [x, x] } } }
    let r := after (.restartEngine .cp0 0) s
    s.analysing = some ⟨x, .plain⟩ ∧ s.taps.a.fifo = [x] ∧ s.table = []
      ∧ r.analysing = none ∧ (after .analysisTake r).table = []
      ∧ (after .analysisTake (after (.tapLinkDown .a) s)).table.length = 1 := by decide +kernel
/-- R43: a cause behind the WATCH crossing of the same arrival waits, and is taken after it. -/
theorem test_crossings_are_taken_in_their_order :
    let s := queued room [.watch, .cause .stormCut none (some 4000) none none]
    let t := after (.watchCrossing 5) s
    after (.causeTaken 5 ⟨.stormCut, 0⟩) s = s ∧ t.ports[(5 : Port)].state = .watch
      ∧ (after (.causeTaken 5 ⟨.stormCut, 0⟩) t).ports[(5 : Port)].state = .cut := by decide +kernel
/-- R43: the crossings of one arrival carry one mark, those of the next another. -/
theorem test_an_arrival_marks_its_crossings :
    let s := withPort room 5 { openPort with level := 1499, calm := false }
    let t := after (.tapFrame .a (broadcast 5) .portsFirst) s
    let u := after (.tapFrame .a (broadcast 5) .portsFirst) (withPort t 5 { openPort with level := 3999, calm := false })
    u.gateReqs.map (fun q => (q.kind, q.arrival)) =
      [(.watch, some 0), (.cause .stormCut none (some 4001) none none, some 1)] := by decide +kernel
/-- R142, two causes: LOOP and FOREIGN of one block, storms of two arrivals, and two LOOPs, each in both orders; the first
taken is recorded first. -/
theorem test_two_causes_are_taken_in_either_order :
    let loop (q : Port) : GateReq := ⟨some 5, .cause .loop (some q) none none none, none⟩
    let storm (c : LadderCause) (mark : Nat) : GateReq := ⟨some 5, .cause c none (some 9) none none, some mark⟩
    let s (rs : List GateReq) : State := { room with gateReqs := rs }
    let causes (a b : CauseTurn) (rs : List GateReq) : List (Cause × Option Port) :=
      (after (.causeTaken 5 b) (after (.causeTaken 5 a) (s rs))).ring.map fun x => (x.cause, x.partner)
    causes ⟨.loop, 0⟩ ⟨.foreign, 0⟩ [loop 9, ⟨some 5, .cause .foreign none none none none, none⟩] =
        [(.ladder .loop, some 9), (.ladder .foreign, none)]
      ∧ causes ⟨.foreign, 0⟩ ⟨.loop, 0⟩ [loop 9, ⟨some 5, .cause .foreign none none none none, none⟩] =
        [(.ladder .foreign, none), (.ladder .loop, some 9)]
      ∧ causes ⟨.stormShut, 0⟩ ⟨.stormCut, 0⟩ [storm .stormCut 1, storm .stormShut 2] =
        [(.ladder .stormShut, none), (.ladder .stormCut, none)]
      ∧ causes ⟨.stormShut, 0⟩ ⟨.stormCut, 0⟩ [storm .stormCut 1, storm .stormShut 1] = [(.ladder .stormCut, none)]
      ∧ causes ⟨.loop, 1⟩ ⟨.loop, 0⟩ [loop 9, loop 10] = [(.ladder .loop, some 10), (.ladder .loop, some 9)] := by
  decide +kernel
/-- R90, R92, R139: a return of port 5, whose cable is newer, on port 9 raises LOOP on port 5. Before its analysis ends,
port 5 made PINNED brings it to port 9, and to PINNED_LOOP where port 9 was PINNED at the taking; a link-up of port 9 or
port 9 made PINNED changes nothing. -/
theorem test_a_return_is_judged_at_its_taking_but_for_its_egress_port_made_pinned :
    let head := beBytes 6 room.profile.groupAddress.toNat ++ beBytes 6 0 ++ beBytes 2 room.profile.probeType.toNat
    let payload := probePayload room.profile.chassisNumber 0 5 7 0 0
    let x : Slot := ⟨headBytes ⟨head.take 12 ++ [0, 0, 0, 9] ++ head.drop 12 ++ payload ++ beBytes 2 (checkWord payload), 68, true⟩, 64, 9, 0⟩
    let s (q : PortRec) : State := armed { withPort (withPort room 5 { openPort with lastLinkUp := some 30 }) 9 q with
      msTime := 40, taps := { room.taps with a := { upTap with fifo := [x] } } }
    let t := after .analysisTake (s openPort)
    let both := after .analysisTake (s { openPort with mode := .pinned })
    let loop (p q : Port) : List GateReq := [⟨some p, .cause .loop (some q) none (some 40) none, none⟩]
    (after .analysisTake t).gateReqs = loop 5 9
      ∧ (after .analysisTake (after (.setModePinned .cp0 5) t)).gateReqs = loop 9 5
      ∧ (after .analysisTake (after (.setModePinned .cp0 9) t)).gateReqs = loop 5 9
      ∧ (after .analysisTake (withPort t 9 { openPort with lastLinkUp := some 40 })).gateReqs = loop 5 9
      ∧ (after .analysisTake both).gateReqs = loop 5 9
      ∧ (after .analysisTake (after (.setModePinned .cp0 5) both)).gateReqs = [⟨some 5, .pinnedLoop 9, none⟩] := by decide +kernel
/-- R160: control port 1 detached while it shifts out a record: nothing of the record goes out but what had gone. -/
theorem test_detaching_cuts_the_record_off :
    let r : IncidentAnswer := ⟨8, 0, true, 1, some (someRecord 0), false⟩
    let s : State := { room with cps := {
      cp0 := { room.cps.cp0 with phase := .receiving }
      cp1 := { room.cps.cp1 with
        phase := .answering, status := some .ok, response := [0, 1] ++ (someRecord 0).bytes, answer := .incidents r } } }
    let off := after (.writeProfile .cp0 117 1 [0])
    (after (.chipSelectRise ⟨.cp1, 25⟩) (off s)).cps.cp1.out = [0, 0, 0, 1]
      ∧ (after (.chipSelectRise ⟨.cp1, 25⟩) (off (after (.readIncidents .cp1 (.shiftedOut 11)) s))).cps.cp1.out =
          [0, 0, 0, 1, 0, 0, 0, 0, 0, 0, 10]
      ∧ (after (.incidentConsumed .cp1) (off s)).cps.cp1 = (off s).cps.cp1
      ∧ (after (.chipSelectRise ⟨.cp1, 25⟩) s).cps.cp1.out.length = 25 := by decide +kernel
/-- R189: each field of an image at its offset. -/
theorem test_image_has_each_field_at_its_place :
    ∀ f ∈ fieldOrder, beNat (bytesAt room.profile.image (imagePlace f) f.width) = room.profile.value f := by decide +kernel
/-- R31, R165: a probe on the line at a restart is counted when it has left, and marks no entry. -/
theorem test_orphan_is_counted :
    let s : State := { room with
      counters := room.counters.set 0 ⟨.probesSent, some 5, 0⟩
      taps := { room.taps with a := { upTap with sending := .orphan ⟨7, 5, [], false⟩ } } }
    (after (.probeDeparture .a) s).counters[(0 : Fin 4)].count = 1 ∧ (after (.probeDeparture .a) s).taps.a.attempts = 0 := by
  decide +kernel

/-! ### Witnesses: hypotheses that a state and operands meet together -/

/-- A request of port 5 with nothing before it but a request of another port. -/
theorem oldest_waits (s : State) (k : GateReqKind) : Oldest (waits s k) 5 k (waiting k) :=
  ⟨⟨some 5, k, none⟩, by simp [named], [⟨some 7, .watch, none⟩], [⟨some 5, k, none⟩], rfl, rfl, by simp [named],
    by simp [Precedes]⟩

/-- A request of port 5 that its row names at turn 0, with nothing before it but a request of another port. -/
theorem turn_waits (s : State) {k : GateReqKind} {own : GateReq → Bool} (hk : own ⟨some 5, k, none⟩ = true)
    (h7 : own ⟨some 7, .watch, none⟩ = false) : InTurn (waits s k) own 0 ⟨some 5, k, none⟩ (waiting k) :=
  ⟨hk, [⟨some 7, .watch, none⟩], [⟨some 5, k, none⟩], rfl, rfl, by simp [h7], by simp [Precedes]⟩

/-- A request of port 5 behind one of the same arrival. -/
theorem behind_queued (s : State) {e k : GateReqKind} {own : GateReq → Bool} (hk : own ⟨some 5, k, some 4⟩ = true)
    (he : own ⟨some 5, e, some 4⟩ = false) : Behind (queued s [e, k]) own 0 :=
  ⟨[⟨some 5, e, some 4⟩], ⟨some 5, k, some 4⟩, [], ⟨some 5, e, some 4⟩, rfl, hk, by simp [he], by simp, rfl,
    .inl ⟨by simp, rfl⟩⟩

theorem witness_StepRunsTheFrontCommand :
    ({ room with pending := [.ledLatch, .tenthTick] } : State).pending = .ledLatch :: [.tenthTick] ∧ room.pending = [] := by
  decide +kernel

theorem witness_ResetHoldsThePartAtTheManualsValues :
    (after .resetAssert room).resetLow = true ∧ Instr.ledLatch ≠ .resetAssert ∧ Instr.ledLatch ≠ .resetRelease
      ∧ room.resetLow = false := by decide +kernel

theorem witness_TransactionsReadBack :
    Instr.wf (.writeProfile .cp0 117 1 [1]) = true ∧ encodeTransaction (.writeProfile .cp0 117 1 [1]) = some (.cp0, [17, 117, 1, 1])
      ∧ 3 < [17, 117, 1, (1 : Byte)].length ∧ decodeTransaction .cp1 [22, 9] = some (.releaseEngine .cp1)
      ∧ Instr.wf (.unknownCommand .cp1 23) = true ∧ encodeTransaction (.unknownCommand .cp1 23) = some (.cp1, [23])
      ∧ 0 < [(23 : Byte)].length ∧ (List.replicate 7 true).length < 8 := by decide +kernel

theorem witness_TransactionsAreFramedByChipSelect :
    On room ∧ encodeTransaction (.readIdent (.command .cp0)) = some (.cp0, [1]) ∧ (room.cps.get .cp0).phase ≠ .receiving
      ∧ Listening (armed room) .cp1 ∧ 23 ≤ (23 : Byte).toNat ∧ 23 ≤ (255 : Byte).toNat ∧ (room.cps.get .cp0).phase = .idle
      ∧ ((answering room .fixed).cps.get .cp0).phase = .answering
      ∧ ((answering room (.waiting .find)).cps.get .cp0).answer = .waiting .find
      ∧ ((answering room .abandoned).cps.get .cp0).answer = .abandoned := by decide +kernel

/-- Each check of a gate command at the edge of its range: port bytes 47 and 48, flag bytes 1 and 2, a PINNED port, a HELD
engine, a hold of the other port. -/
theorem witness_GateCommandsAreCheckedInOrder :
    let s := armed (withPort room 47 { openPort with mode := .pinned })
    Listening s .cp1 ∧ decide (48 ≤ (48 : Byte).toNat) = true ∧ decide (48 ≤ (47 : Byte).toNat) = false
      ∧ decide (2 ≤ (2 : Byte).toNat) = true ∧ decide (2 ≤ (1 : Byte).toNat) = false
      ∧ (portArg 47).any (fun p => decide (s.ports[p].mode = .pinned)) = true
      ∧ (portArg 5).any (fun p => decide (s.ports[p].mode = .pinned)) = false
      ∧ (3 : Byte) ≠ 1 ∧ (3 : Byte) ≠ 2 ∧ (0 : Byte) ≠ 1 ∧ (0 : Byte) ≠ 2 ∧ s.running = true
      ∧ Listening (armed restarted) .cp0 ∧ (armed restarted).running = false
      ∧ Listening (armed { room with holdOwner := some .cp0 }) .cp1
      ∧ (armed { room with holdOwner := some .cp0 }).holdOwner ≠ none
      ∧ (armed { room with holdOwner := some .cp0 }).holdOwner ≠ some .cp1 := by decide +kernel

/-- Each refused range at its edge. -/
theorem witness_OtherCommandsAreRefusedByTheirChecks :
    let loading := armed State.reset
    let saving := armed { room with store := { room.store with condition := .saving, save := some ⟨[], 0, 0⟩ } }
    let detached := armed { room with profile := { room.profile with cp1Attached := false } }
    let scanning := armed { room with find := .scanning 0 ⟨none, .cp0, 0, none, []⟩ }
    Listening (armed room) .cp1 ∧ Listening (armed room) .cp0
      ∧ (Listening detached .cp1 ∧ detached.profile.cp1Attached = false)
      ∧ (armed room).profile.cp1Attached = true ∧ 9 ≤ (9 : Byte).toNat ∧ 48 ≤ (48 : Byte).toNat ∧ (48 : Byte) ≠ 0xFF
      ∧ (Listening scanning .cp0 ∧ scanning.find = .scanning 0 ⟨none, .cp0, 0, none, []⟩ ∧ (47 : Byte).toNat < 48)
      ∧ 4 ≤ (4 : Byte).toNat ∧ 16 ≤ (16 : Byte).toNat ∧ 118 ≤ (118 : Byte).toNat
      ∧ 118 < (117 : Byte).toNat + (2 : Byte).toNat
      ∧ Instr.wf (.writeProfile .cp0 117 2 []) = true ∧ Instr.wf (.writeProfile .cp0 117 0 []) = true
      ∧ Instr.wf (.writeProfile .cp1 16 1 [9]) = true ∧ Instr.wf (.writeProfile .cp0 117 1 [1]) = true
      ∧ [(1 : Byte)].length < runWidth (writeFields 0 1)
      ∧ (Listening saving .cp0 ∧ saving.store.condition ≠ .ready ∧ (0 : Byte).toNat < 118 ∧ (118 : Byte) ≠ 0
        ∧ (0 : Byte).toNat + (118 : Byte).toNat ≤ 118)
      ∧ ((16 : Byte).toNat ≤ 16 ∧ 5 < (16 : Byte).toNat + (1 : Byte).toNat ∧ (1 : Byte) ≠ 0 ∧ (armed room).running = true)
      ∧ 5 < (0 : Byte).toNat + (6 : Byte).toNat
      ∧ 2 ≤ (2 : Byte).toNat ∧ (1 : Byte).toNat < 2
      ∧ (Listening loading .cp0 ∧ loading.store.condition = .loading) := by decide +kernel

theorem witness_ReadsChangeNothingButTheirAnswer :
    Listening (armed room) .cp1 ∧ fieldOrder[0]? = some FieldId.chassisNumber ∧ fieldOrder[117]? = some FieldId.cp1Attached
      ∧ 117 < 118 ∧ ((answering room (.waiting .ident)).cps.get .cp0).answer = .waiting .ident
      ∧ ((answering room (.waiting (.counter 3))).cps.get .cp0).answer = .waiting (.counter 3)
      ∧ ((answering room (.port 47)).cps.get .cp0).answer = .port 47
      ∧ On (answering room (.ports 47)) ∧ ((answering room (.ports 47)).cps.get .cp0).answer = .ports 47
      ∧ ((answering room (.profile 117)).cps.get .cp0).answer = .profile 117
      ∧ ((answering { room with firstDeferred := some 8 } (.status (some 8))).cps.get .cp0).answer = .status (some 8)
      ∧ ((answering { room with firstDeferred := some 9 } (.status (some 8))).cps.get .cp0).answer = .status (some 8) := by
  decide +kernel

theorem witness_ResponsesHaveTheirLayouts :
    let e : FpEntry := ⟨1, 5, 0, 0, 15, seenBit 5⟩
    let r : FindResult := ⟨none, .cp1, 1024, some 1023, List.replicate 8 (1023, e)⟩
    room.portsOk ∧ room.profile.ok ∧ room.listOk ∧ room.tapsOk ∧ room.countsOk
      ∧ ((someRecord 0).level ≤ 65535 ∧ (someRecord 0).penalty ≤ 7 ∧ (someRecord 0).hold ≤ 65535)
      ∧ (r.count ≤ 1024 ∧ r.copies.length ≤ 8 ∧ r.copies[7]? = some (1023, e) ∧ 1023 < 1024 ∧ e.hits ≤ 15) := by
  refine ⟨?_, ?_, ?_, ?_, ?_, ?_, ?_⟩ <;> decide +kernel

theorem witness_PresentedCodeFollowsModeAndState :
    ({ openPort with mode := .pinned } : PortRec).legal = true
      ∧ On (after (.pollStart .a) room) ∧ ((after (.pollStart .a) room).polls.get .a).phase = .write := by decide +kernel

theorem witness_PortMapAndItsReverseAgree :
    room.profile.ok ∧ room.profile.mapFabric .b 23 = some 47 ∧ room.profile.mapFabric .b 24 = none := by decide +kernel

theorem witness_AttemptsAndUrgentRequests :
    room.eligibleOn .a 5 = true ∧ Running { room with urgent := [⟨5, true⟩] }
      ∧ (⟨5, true⟩ : UrgentReq) ∈ ({ room with urgent := [⟨5, true⟩] } : State).urgent := by decide +kernel

theorem witness_WeightsFollowTheFabricLength :
    64 ≤ 1458 ∧ 1458 + 64 ≤ 1522 ∧ On room ∧ (room.taps.get .a).linkUp = true
      ∧ receiveCheck room.profile .a (broadcast 5) = .accepted 5
      ∧ ({ room with counters := room.counters.set 1 ⟨.floodUnits, some 5, 9⟩ } : State).counters[(1 : Fin 4)] = ⟨.floodUnits, some 5, 9⟩ := by
  decide +kernel

/-- A frame for each verdict: lengths 19 and 16384 fail, 20 passes; fabric port 24 is unmapped, 5 is not. -/
theorem witness_TapFramesAreCheckedMeteredAndStored :
    let b (f : TapFrame) (i : Nat) : Nat := (f.bytes.getD i 0).toNat
    let individual : TapFrame := { broadcast 5 with bytes := (broadcast 5).bytes.set 0 0x02 }
    let full := { room with taps := { room.taps with a := { upTap with fifo := List.replicate 16 ⟨[], 64, 5, 0⟩ } } }
    On room ∧ (State.reset.taps.get .a).linkUp = false ∧ (room.taps.get .a).linkUp = true
      ∧ ({ broadcast 5 with length := 19 } : TapFrame).length < 20 ∧ 16383 < ({ broadcast 5 with length := 16384 } : TapFrame).length
      ∧ ({ broadcast 5 with fcsGood := false } : TapFrame).fcsGood = false
      ∧ (¬(broadcast 5).length < 20 ∧ (broadcast 5).fcsGood = true ∧ b (broadcast 5) 12 * 256 + b (broadcast 5) 13 = 0xB4D0
        ∧ ¬128 ≤ b (broadcast 5) 14 ∧ room.profile.tapTagType.toNat = 0xB4D0)
      ∧ 128 ≤ b { broadcast 5 with bytes := (broadcast 5).bytes.set 14 0x80 } 14
      ∧ room.profile.mapFabric .a 24 = none ∧ room.profile.mapFabric .a 5 = some 5
      ∧ b individual 0 % 2 = 0 ∧ b (broadcast 5) 0 % 2 = 1 ∧ restarted.running = false ∧ room.running = true
      ∧ 16 ≤ (full.taps.get .a).fifo.length ∧ TapFrame.wf (broadcast 5) = true ∧ 95 < 96 := by decide +kernel

/-- A port in LISTEN whose listen probe is queued on tap A. -/
def listening : State :=
  let r := { openPort with state := .listen, listenProbe := some 1202, backlog := 0, goodTimer := .stopped,
                           listenTimer := ⟨true, 9, false⟩ }
  { withPort room 5 r with
    probes := [⟨1202, 5, 0, 0, .listen, .queued, 0, 0⟩]
    taps := { room.taps with a := { upTap with queue := [⟨1202, 5, [], false⟩] } } }

theorem witness_TapLinkChangesTaken :
    On State.reset ∧ (State.reset.taps.get .a).linkUp = false ∧ On listening ∧ (listening.taps.get .a).linkUp = true
      ∧ listening.listOk
      ∧ ∃ e ∈ listening.probes, ((listening.taps.get .a).queue.any fun q => !q.entryGone && decide (q.sequence = e.sequence)) = true := by
  decide +kernel

theorem witness_MsTickCountsDrainsAndSweeps :
    On room ∧ room.running = true ∧ room.tickBegun = false ∧ On restarted ∧ restarted.running = false
      ∧ On { room with tickBegun := true } := by decide +kernel

/-- Cc met after an expiry that was taken first on its tick: the timer has all its Ti ticks to come (R53). -/
theorem test_a_start_after_an_expiry_taken_first_counts_from_its_tick :
    let s := after (.classIntervalExpiry .expiryFirst) { room with classTimer := some 1, classLevel := 119999 }
    let t := after (.msTick .portsFirst) (s.classArrival 5 1)
    s.classTimer = none ∧ s.msTime = room.msTime + 1
      ∧ t.classTimer = some room.profile.ti ∧ t.msTime = s.msTime ∧ t.classLevel = 120000 - room.profile.dc := by
  decide +kernel

/-- A state in which every timer of the block has run out. -/
theorem witness_TimersOfTheBlockExpire :
    let s : State := { room with tenthDue := true, slotTimer := some 0, classTimer := some 0, decayTimer := some 0 }
    On s ∧ s.tenthDue = true ∧ s.slotTimer = some 0 ∧ s.classTimer = some 0 ∧ s.decayTimer = some 0
      ∧ ({ s with classTimer := some 1 } : State).classTimer = some 1 ∧ s.running = true ∧ s.tickBegun = false ∧ s.classLevel < s.profile.cc
      ∧ s.profile.cc ≤ ({ s with classTimer := some 1, classLevel := 120000 } : State).classLevel := by decide +kernel

/-- A serving attempt that serves port 5, and one that finds a full list. -/
theorem witness_ServingAttemptsServeDeferOrFindNothing :
    let s : State := { room with taps := { room.taps with a := { upTap with attempts := 1 } } }
    let full : State := { s with probes := (List.range 64).map fun i => ⟨BitVec.ofNat 16 i, 9, 0, 0, .routine, .sent, 0, 0⟩ }
    On s ∧ s.probes.length ≤ 64 ∧ 0 < (s.taps.get .a).attempts ∧ s.arbiter .a = some 5 ∧ (s.taps.get .a).queue.length < 4
      ∧ s.probes.length < 64 ∧ full.probes.length = 64 ∧ full.arbiter .a = some 5 ∧ (s.taps.get .b).attempts = 0 := by
  decide +kernel

/-- Both taps contest the last entry of the list. -/
theorem witness_ServingAttemptsContestTheLastEntry :
    let up : TapRec := { upTap with attempts := 1 }
    let s : State := { withPort room 30 openPort with
      taps := ⟨up, up⟩
      probes := (List.range 63).map fun i => ⟨BitVec.ofNat 16 i, 9, 0, 0, .routine, .sent, 0, 0⟩ }
    On s ∧ s.probes.length = 63 ∧ 0 < s.taps.a.attempts ∧ 0 < s.taps.b.attempts ∧ s.arbiter .a = some 5 ∧ s.arbiter .b = some 30
      ∧ s.taps.a.queue.length < 4 ∧ s.taps.b.queue.length < 4 ∧ s.lastTapServed = .b := by decide +kernel

theorem witness_ArbiterServesTheHighestBacklog :
    let s : State := { room with taps := { room.taps with a := { upTap with attempts := 1 } } }
    Running s ∧ 0 < (s.taps.get .a).attempts ∧ s.attemptTap .a = .a ∧ s.attemptFinds .a = .serve 5
      ∧ Listening (armed room) .cp0 ∧ (1 : Byte).toNat < 2 ∧ (armed room).store.condition ≠ .loading := by decide +kernel

theorem witness_TransmittersSendTheirQueueInOrder :
    let q : TxProbe := ⟨1202, 5, [], false⟩
    let sends (x : Sending) : State := { listening with taps := { listening.taps with a := { listening.taps.a with sending := x } } }
    On listening ∧ q.entryGone = false ∧ (listening.taps.get .a).sending = .idle ∧ ((sends (.orphan q)).taps.get .a).sending = .orphan q
      ∧ ((sends .head).taps.get .a).sending = .head ∧ ((sends .head).taps.get .a).queue = q :: [] := by decide +kernel

/-- The head entry due and not due, SENT and QUEUED, of a listen probe and of another. -/
theorem witness_EntriesRetireAtTheirLife :
    let e : ProbeEntry := ⟨1202, 5, 0, 0, .listen, .sent, 0, 0⟩
    let aged (x : ProbeEntry) : State := { listening with probes := [x], msTime := 120, lifeLimit := some 120 }
    room.probes = [] ∧ On (aged e) ∧ (aged e).probes = e :: [] ∧ (aged e).running = true
      ∧ ((aged e).lifeLimit = some 120 ∧ 120 ≤ ((aged e).msTime - e.emitted).toNat)
      ∧ ¬120 ≤ ({ aged e with msTime := 119 }.msTime - e.emitted).toNat
      ∧ e.condition = .sent ∧ { e with condition := .queued }.condition = .queued
      ∧ ((aged e).ports[e.egress].state = .listen ∧ (aged e).ports[e.egress].listenProbe = some e.sequence)
      ∧ ({ e with purpose := .routine, stale := 1 }.purpose ≠ .listen ∧ e.valid = 0) := by decide +kernel

theorem witness_ProbesAreRecognisedWhenTheyReturn :
    [0xB4, 0xD0, 0, (9 : Byte)].length = 4 ∧ [0, 0, 0, (0 : Byte)].length = 4 := by decide

/-- A FIFO taken from in its turn, and one taken from because the other is empty; a path that holds a frame, of each thing
that can be found of one, a valid return with its egress port as it was and made PINNED since; and a frame for each thing a
frame can be: no probe, a probe with a bad sum, one of another chassis, one of port 47, and one that names port 48. -/
theorem witness_AnalysisTakesTheFifosInTurn :
    let x : Slot := ⟨headBytes (broadcast 5), 64, 5, 0⟩
    let s : State := { room with taps := { room.taps with a := { upTap with fifo := [x, x] } } }
    let both : State := { s with taps := ⟨s.taps.a, s.taps.a⟩ }
    let pr := room.profile
    let probe (chassis : BitVec 32) (p : Byte) : List Byte :=
      let payload := beBytes 4 chassis.toNat ++ [16, p, 0, 1, 0, 2, 0, 3]
      beBytes 6 pr.groupAddress.toNat ++ beBytes 6 0 ++ beBytes 2 pr.probeType.toNat ++ payload ++ beBytes 2 (checkWord payload)
    let held (f : Finding) : State := { room with analysing := some ⟨x, f⟩ }
    let valid : Finding := .valid 5 ⟨some 5, .cause .selfLoop none none (some 3) (some .routine), none⟩ ⟨some 5, .pinnedLoop 5, some 2⟩
    let pinned : State := { held valid with ports := room.ports.set 5 { openPort with mode := .pinned } }
    On room ∧ room.taps.a.fifo = [] ∧ room.taps.b.fifo = [] ∧ restarted.running = false
      ∧ s.running = true ∧ (s.taps.get .a).fifo = x :: [x] ∧ (s.taps.get .b).fifo = [] ∧ both.lastTaken ≠ .a
      ∧ (both.taps.get .a).fifo = x :: [x] ∧ s.analysing = none
      ∧ (after .analysisTake s).analysing = some ⟨x, .plain⟩
      ∧ (∀ f ∈ [Finding.plain, .malformed, .foreign, .stale 5, valid], On (held f) ∧ (held f).analysing = some ⟨x, f⟩
        ∧ (after .analysisTake (held f)).analysing = none)
      ∧ (held valid).ports[(5 : Port)].mode ≠ .pinned ∧ On pinned ∧ pinned.analysing = some ⟨x, valid⟩
      ∧ (after .analysisTake (held valid)).gateReqs =
        room.gateReqs ++ [⟨some 5, .cause .selfLoop none none (some 3) (some .routine), none⟩]
      ∧ (after .analysisTake pinned).gateReqs = room.gateReqs ++ [⟨some 5, .pinnedLoop 5, none⟩]
      ∧ isCandidate pr x.head = false ∧ isCandidate pr (probe 9 47) = true
      ∧ wordSum (bytesAt ((probe 9 47).set 20 1) 14 14) % 65536 ≠ 65535 ∧ frameKind pr (probe 9 48) = .foreign
      ∧ wordSum (bytesAt (probe pr.chassisNumber 47) 14 14) % 65536 = 65535
      ∧ frameKind pr (probe pr.chassisNumber 47) = .own 47 ∧ frameKind pr (probe pr.chassisNumber 48) = .malformed := by
  decide +kernel

theorem witness_OwnProbesAreJudged : listening.listOk ∧ listening.probes ≠ [] := by decide +kernel

/-- Pairs of ports for each line of the choice: PINNED, newer, absent and equal times. -/
theorem witness_LoopChoosesTheNewestPort :
    let pin := { openPort with mode := .pinned }
    let newer := { openPort with lastLinkUp := some 7 }
    let s := withPort (withPort (withPort (withPort { room with msTime := 9 } 6 pin) 7 pin) 8 newer) 9 openPort
    (5 : Port) ≠ 6 ∧ s.ports[(6 : Port)].mode = .pinned ∧ s.ports[(7 : Port)].mode = .pinned ∧ s.ports[(5 : Port)].mode ≠ .pinned
      ∧ (s.msTime - 7).toNat < (s.msTime - 0).toNat ∧ s.ports[(8 : Port)].lastLinkUp = some 7
      ∧ s.ports[(5 : Port)].lastLinkUp = s.ports[(9 : Port)].lastLinkUp ∧ s.ports[(10 : Port)].lastLinkUp = none := by
  decide +kernel

/-- A live match seen and not seen, a match at the repeat limit, an open way, and a full set of live entries. -/
theorem witness_FramesAreEnteredInTheTable :
    let x : Slot := ⟨List.replicate 96 0, 64, 5, 10⟩
    let e (p : Port) (n : Nat) : FpEntry := ⟨fpTag (fingerprint x.head), p, 0, 0, n, seenBit p⟩
    let set := fpSet (fingerprint x.head) * 4
    let s (t : List (Nat × FpEntry)) : State := { room with msTime := 10, table := t }
    let other (n : Nat) : Nat × FpEntry := (set + n, ⟨BitVec.ofNat 24 n, 9, 0, 0, 1, seenBit 9⟩)
    (s [(set, e 9 1)]).tableOk ∧ placeGet (s [(set, e 9 1)]).table set = some (e 9 1)
      ∧ ((10 : MsTime) - 0).toNat < room.profile.we ∧ (e 9 1).hasSeen 5 = false ∧ (e 5 3).hasSeen 5 = true
      ∧ (e 5 3).hits + 1 = room.profile.nr ∧ (e 5 15).hits + 1 ≠ room.profile.nr
      ∧ (s []).tableOk ∧ placeGet (s []).table set = none
      ∧ (s [other 0, other 1, other 2, other 3]).tableOk ∧ (other 3).2.tag ≠ (e 5 1).tag := by decide +kernel

theorem witness_FindGathersEveryMatch :
    let r : FindResult := ⟨none, .cp1, 0, none, []⟩
    let s : State := { room with find := .scanning 3 r, table := [(1023, ⟨1, 5, 0, 0, 2, seenBit 5 ||| seenBit 6⟩)] }
    On (armed room) ∧ ((armed room).cps.get .cp1).phase = .receiving ∧ room.find = .idle ∧ On s ∧ s.find = .scanning 3 r
      ∧ r.copies.length ≤ 8 ∧ s.tableOk := by decide +kernel

/-- Fields at both ends of the order, with values at the end of their width. -/
theorem witness_OneFieldIsWritten :
    Listening (armed room) .cp0 ∧ (armed room).store.condition = .ready ∧ fieldOrder[117]? = some FieldId.cp1Attached ∧ 255 < 256 ^ 1
      ∧ FieldId.isWindow .cp1Attached = false ∧ (armed room).profile.ok ∧ fieldOrder[0]? = some FieldId.chassisNumber
      ∧ 4294967295 < 256 ^ FieldId.width .chassisNumber ∧ fieldOrder[96]? = some FieldId.we
      ∧ fieldOrder[86]? = some FieldId.wc ∧ fieldOrder[87]? = some FieldId.cc ∧ fieldOrder[94]? = some FieldId.hb ∧ fieldOrder[95]? = some FieldId.hmax := by
  refine ⟨?_, ?_, ?_, ?_, ?_, ?_, ?_, ?_, ?_, ?_, ?_, ?_, ?_⟩ <;> decide +kernel

/-- R38, R127, R129, R189: a W above C and S raises both, an action code of 9 is SHUT, a per-port byte's mode code 3 HELD. -/
theorem test_fields_are_clamped_together :
    (room.profile.write (.meter 0 .w) 65535).meters[(0 : Fin 4)] = ⟨8, 65535, 65535, 65535, 500⟩
      ∧ (room.profile.write (.meter 0 .w) 300).meters[(0 : Fin 4)] = ⟨8, 300, 4000, 12000, 300⟩
      ∧ (room.profile.write (.ladder 5) 9).ladder[(5 : Fin 7)] = .shut
      ∧ ((room.profile.write (.portByte 3) 0xFF).portBytes[(3 : Port)]).toByte = 0xFE
      ∧ (room.profile.write .cp1Attached 9).value .cp1Attached = 1 := by decide +kernel

/-- A window write that meets another window by one port, and one that stops short of it by one. -/
theorem witness_WindowsAreWrittenWhole :
    Listening (armed restarted) .cp0 ∧ (armed restarted).store.condition = .ready ∧ (armed restarted).running = false ∧ 255 < 256
      ∧ (Window.clamped ⟨0, 25, 0⟩).overlaps restarted.profile.windows[(2 : Fin 4)] = true
      ∧ (Window.clamped ⟨0, 24, 0⟩).overlaps restarted.profile.windows[(2 : Fin 4)] = false := by decide +kernel

theorem witness_RunsAreWrittenFieldByField :
    Listening (armed restarted) .cp0 ∧ (armed restarted).store.condition = .ready ∧ 2 ≤ 2 ∧ 116 + 2 ≤ 118
      ∧ fieldOrder[116]? = some (.ledOff 3) ∧ [(3 : Byte)].length = FieldId.width (.ledOff 3)
      ∧ [(1 : Byte)].length = runWidth (fieldRun 117 1) ∧ (fieldRun 116 2).any FieldId.isWindow = false
      ∧ exec (.writeProfile .cp0 116 1 [3]) (armed restarted) = .next (after (.writeProfile .cp0 116 1 [3]) (armed restarted))
      ∧ (after (.writeProfile .cp0 116 1 [3]) (armed restarted)).cps.cp0.status ≠ some .overlap
      ∧ (after (.writeProfile .cp0 6 1 [25]) (armed restarted)).cps.cp0.status = some .overlap := by
  refine ⟨?_, ?_, ?_, ?_, ?_, ?_, ?_, ?_, exec_after ?_, ?_, ?_⟩ <;> decide +kernel

theorem witness_SavedImagesLoadBack : room.profile.ok := by decide +kernel

/-- A byte list for each result of the load, at the lengths where the results meet. -/
theorem witness_LoadEndStartsTheEngine :
    On State.reset ∧ State.reset.store.condition = .loading ∧ State.reset.profile.ok ∧ room.store.condition ≠ .loading
      ∧ [(0xFF : Byte)].length < 2 ∧ ¬[0xFF, (0xFF : Byte)].length < 2 ∧ (List.replicate 255 (0x52 : Byte)).length < 256
      ∧ room.profile.image.length ≤ 256 ∧ judgeImage room.profile.image = .loaded := by decide +kernel

theorem witness_SavesWriteSixteenPages :
    let j : SaveJob := ⟨room.profile.image, 15, 25⟩
    let s : State := { room with store := { room.store with condition := .saving, save := some j } }
    Listening (armed room) .cp0 ∧ (armed room).store.condition = .ready ∧ On room ∧ room.store.save = none ∧ On s
      ∧ s.store.save = some j ∧ ¬j.page < 15 ∧ 25 ≤ j.waited ∧ j.image.length = 256 ∧ { j with page := 14 }.page < 15 := by
  decide +kernel

theorem witness_EngineIsRestartedAndReleased :
    let r : FindResult := ⟨none, .cp1, 0, none, []⟩
    let s : State := armed { listening with
      find := .scanning 3 r, taps := { listening.taps with a := { listening.taps.a with sending := .head } } }
    Listening s .cp0 ∧ s.store.condition ≠ .loading ∧ s.find = .scanning 3 r ∧ (s.taps.get .a).sending = .head
      ∧ (s.taps.get .a).queue = ⟨1202, 5, [], false⟩ :: [] ∧ (s.taps.get .b).sending ≠ .head ∧ room.find = .idle
      ∧ Listening (armed room) .cp0 ∧ (armed room).store.condition ≠ .loading := by decide +kernel

theorem witness_LinkChangesTaken :
    (Running (waits room .linkUp) ∧ Oldest (waits room .linkUp) 5 .linkUp (waiting .linkUp))
      ∧ (Running (waits room .linkDown) ∧ Oldest (waits room .linkDown) 5 .linkDown (waiting .linkDown)) :=
  ⟨⟨by decide +kernel, oldest_waits _ _⟩, by decide +kernel, oldest_waits _ _⟩

theorem witness_CrossingsAndScoreChangesTaken :
    Running (waits room .downward) ∧ Oldest (waits room .watch) 5 .watch (waiting .watch)
      ∧ Oldest (waits room .downward) 5 .downward (waiting .downward)
      ∧ Oldest (waits room .rise) 5 .rise (waiting .rise)
      ∧ Oldest (waits room .echoToZero) 5 .echoToZero (waiting .echoToZero)
      ∧ Oldest (waits room .echoFromZero) 5 .echoFromZero (waiting .echoFromZero) :=
  ⟨by decide +kernel, oldest_waits _ _, oldest_waits _ _, oldest_waits _ _, oldest_waits _ _, oldest_waits _ _⟩

theorem witness_RequestRowsWithoutTheirRequestChangeNothing :
    On room ∧ room.running = true ∧ room.gateReqs = [] ∧ room.urgent = [] ∧ On restarted ∧ restarted.running = false := by
  decide +kernel

/-- For each row a request of its own behind one of the same arrival, and one behind an opposite change of its condition. -/
theorem witness_RequestRowsWithoutTheirRequestChangeNothing_behind :
    Behind (queued room [.rise, .linkUp]) (named 5 .linkUp) 0 ∧ Behind (queued room [.linkUp, .linkDown]) (named 5 .linkDown) 0
      ∧ Behind (queued room [.rise, .watch]) (named 5 .watch) 0
      ∧ Behind (queued room [.rise, .downward]) (named 5 .downward) 0
      ∧ Behind (queued room [.downward, .rise]) (named 5 .rise) 0
      ∧ Behind (queued room [.watch, .echoToZero]) (scoreChange 5) 0
      ∧ Behind (queued room [.watch, .listenCompletion]) (named 5 .listenCompletion) 0
      ∧ Behind (queued room [.watch, .cause .stormCut none (some 4000) none none]) (causeOn 5 .stormCut) 0
      ∧ Behind (queued room [.watch, .pinnedLoop 9]) (pinnedLoopOn 5) 0
      ∧ Behind (queued room [.watch, .classNoCandidate 9]) noCandidate 0
      ∧ Behind { room with gateReqs := [⟨some 5, .linkUp, none⟩, ⟨some 5, .linkDown, none⟩] } (named 5 .linkDown) 0 :=
  ⟨behind_queued room rfl rfl, behind_queued room rfl rfl, behind_queued room rfl rfl, behind_queued room rfl rfl,
    behind_queued room rfl rfl, behind_queued room rfl rfl, behind_queued room rfl rfl, behind_queued room rfl rfl,
    behind_queued room rfl rfl, behind_queued room rfl rfl, [⟨some 5, .linkUp, none⟩], ⟨some 5, .linkDown, none⟩, [],
    ⟨some 5, .linkUp, none⟩, rfl, rfl, rfl, by simp, rfl, .inr ⟨by decide, rfl⟩⟩

/-- A cause behind another port's request, and the second of two causes of a name, with the first still waiting. -/
theorem witness_CausesTakeTheirLadderAction :
    Running (waits room (.cause .loop (some 9) none (some 3) none))
      ∧ InTurn (waits room (.cause .loop (some 9) none (some 3) none)) (causeOn 5 .loop) 0
          ⟨some 5, .cause .loop (some 9) none (some 3) none, none⟩ (waiting (.cause .loop (some 9) none (some 3) none))
      ∧ InTurn { room with gateReqs := [⟨some 5, .cause .loop (some 9) none none none, none⟩, ⟨some 5, .cause .loop (some 8) none none none, none⟩] }
          (causeOn 5 .loop) 1 ⟨some 5, .cause .loop (some 8) none none none, none⟩ [⟨some 5, .cause .loop (some 9) none none none, none⟩] :=
  ⟨by decide +kernel, turn_waits _ rfl rfl, rfl, [⟨some 5, .cause .loop (some 9) none none none, none⟩], [], rfl, rfl, rfl,
    by simp [Precedes, tells]⟩

theorem witness_CausesNeverOpenAPort :
    (waits room (.cause .loop (some 9) none none none)).portsOk
      ∧ exec (.causeTaken 5 ⟨.loop, 0⟩) (waits room (.cause .loop (some 9) none none none)) =
          .next (after (.causeTaken 5 ⟨.loop, 0⟩) (waits room (.cause .loop (some 9) none none none)))
      ∧ (after (.causeTaken 5 ⟨.loop, 0⟩) (waits room (.cause .loop (some 9) none none none))).ports[(5 : Port)].state = .shut :=
  ⟨by decide +kernel, exec_after (by decide +kernel), by decide +kernel⟩

theorem witness_PinnedLoopAndNoCandidateAreReported :
    Running (waits room (.pinnedLoop 9))
      ∧ InTurn (waits room (.pinnedLoop 9)) (pinnedLoopOn 5) 0 ⟨some 5, .pinnedLoop 9, none⟩ (waiting (.pinnedLoop 9))
      ∧ Running { room with gateReqs := [⟨none, .classNoCandidate 65535, none⟩] }
      ∧ InTurn { room with gateReqs := [⟨none, .classNoCandidate 65535, none⟩] } noCandidate 0 ⟨none, .classNoCandidate 65535, none⟩ [] :=
  ⟨by decide +kernel, turn_waits _ rfl rfl, by decide +kernel, rfl, [], [], rfl, rfl, rfl, by simp⟩

theorem witness_PortTimersAndListenCompletionsAct :
    Running (waits listening .listenCompletion)
      ∧ Oldest (waits listening .listenCompletion) 5 .listenCompletion (waiting .listenCompletion) ∧ On room :=
  ⟨by decide +kernel, oldest_waits _ _, by decide +kernel⟩

/-- Each timer of the gate controller at its expiry. -/
theorem witness_PortTimersAndListenCompletionsAct_expire :
    let due (r : PortRec) : State := withPort room 47 r
    let listen := { openPort with state := .listen, goodTimer := .stopped, listenTimer := ⟨true, 2000, true⟩ }
    let cut := { openPort with state := .cut, goodTimer := .stopped, releaseTimer := ⟨true, 2000, true⟩ }
    let shut := { openPort with state := .shut, goodTimer := .stopped, backlog := 0, penalty := 1 }
    let good := { openPort with penalty := 1, goodTimer := ⟨true, 300000, true⟩ }
    (due listen).ports[(47 : Port)].listenTimer.due = true ∧ (due cut).ports[(47 : Port)].releaseTimer.due = true
      ∧ (due shut).ports[(47 : Port)].hold = 0 ∧ (due good).ports[(47 : Port)].goodTimer.due = true
      ∧ (due listen).ports[(47 : Port)].state = .listen ∧ (due cut).ports[(47 : Port)].state = .cut
      ∧ (due shut).ports[(47 : Port)].state = .shut ∧ (due good).ports[(47 : Port)].state = .opened := by decide +kernel

theorem witness_SetModeTaken :
    Listening (armed room) .cp1 ∧ (armed room).running = true ∧ (armed room).holdOwner = none
      ∧ (armed room).ports[(5 : Port)].mode ≠ .pinned ∧ Listening (armed { room with holdOwner := some .cp0 }) .cp0 := by
  decide +kernel

theorem witness_ReleaseTaken :
    Listening (armed { room with holdOwner := some .cp1 }) .cp1 ∧ (armed room).running = true
      ∧ (armed { room with holdOwner := some .cp1 }).holdOwner = some .cp1 := by decide +kernel

theorem witness_ReleaseAllTaken :
    Listening (armed room) .cp0 ∧ (armed room).running = true ∧ (armed room).holdOwner = none := by
  decide +kernel

theorem witness_HoldIsTakenAndDropped :
    Listening (armed { room with holdOwner := some .cp1 }) .cp0 ∧ Listening (armed room) .cp1 := by decide +kernel

theorem witness_BreakHoldFreesTheHold :
    Listening (armed { room with holdOwner := some .cp1 }) .cp0 ∧ Listening (armed room) .cp1 := by decide +kernel

/-- A ring of 31 records and a full one, unread by control port 0. -/
def ringOf (n : Nat) : State := { room with
  ring := (List.range n).map fun i => someRecord (BitVec.ofNat 16 i), nextNumber := BitVec.ofNat 16 n
  cps := { room.cps with cp0 := { room.cps.cp0 with unread := n } } }

theorem witness_RecordIsPlacedNewest :
    (ringOf 31).ringOk ∧ (ringOf 32).ringOk ∧ (ringOf 32).ring.length = 32 ∧ (ringOf 32).attached .cp1 = true
      ∧ ((ringOf 32).cps.get .cp0).unread = 32 ∧ ((ringOf 31).cps.get .cp0).unread ≠ 32
      ∧ (answering (ringOf 32) (.incidents ⟨8, 0, true, 8, some (someRecord 0), false⟩)).ringOk := by
  refine ⟨?_, ?_, ?_, ?_, ?_, ?_, ?_⟩ <;> decide +kernel

/-- The lost count about to be lowered, a record about to begin, and a record about to be consumed. -/
theorem witness_IncidentsAreReadAndConsumed :
    let r : IncidentAnswer := ⟨8, 1, false, 0, none, false⟩
    let s (a : IncidentAnswer) : State := answering (ringOf 2) (.incidents a)
    let due : IncidentAnswer := { r with lowered := true, left := 2 }
    let out : IncidentAnswer := { due with current := some (someRecord 0) }
    On (ringOf 2) ∧ ((armed (ringOf 2)).cps.get .cp0).phase = .receiving ∧ (armed (ringOf 2)).attached .cp0 = true
      ∧ ((answering (ringOf 2) (.waiting (.incidents 8))).cps.get .cp0).answer = .waiting (.incidents 8)
      ∧ ((s r).cps.get .cp0).answer = .incidents r ∧ r.lowered = false
      ∧ ((s due).cps.get .cp0).answer = .incidents due ∧ due.lowered = true ∧ 0 < due.left ∧ due.current = none
      ∧ 0 < ((s due).cps.get .cp0).unread ∧ (s due).ring[(s due).ring.length - ((s due).cps.get .cp0).unread]? = some (someRecord 0)
      ∧ ((s due).cps.get .cp0).unread ≤ (s due).ring.length
      ∧ ((s out).cps.get .cp0).answer = .incidents out ∧ out.current = some (someRecord 0) ∧ 1 ≤ 8
      ∧ ((s r).cps.get .cp0).answer.readsIncidents = true ∧ ((armed room).cps.get .cp0).answer.readsIncidents = false := by
  decide +kernel

/-- A response that is not, or no longer, the READ_INCIDENTS response that waits. -/
theorem witness_IncidentsAreReadAndConsumed_none_waits :
    ∀ n, ((armed (ringOf 2)).cps.get .cp0).answer ≠ .waiting (.incidents n) := by
  intro n h
  cases h

theorem witness_FlagsMasksAndTheAttentionLine :
    Listening (armed room) .cp1 ∧ On (answering room (.events 0x8000))
      ∧ ((answering room (.waiting .events)).cps.get .cp0).answer = .waiting .events
      ∧ ((answering room (.events 0x8000)).cps.get .cp0).answer = .events 0x8000 := by decide +kernel

theorem witness_CountersCountTheirSelection :
    censusKinds[15]? = some .pollErrors ∧ censusKinds[0]? = some .floodFrames ∧ Listening (armed room) .cp1 := by decide +kernel

theorem witness_PollLinesStartStopAndFallSilent :
    On room ∧ (({ room with polls := { room.polls with a := { room.polls.a with silence := some 0 } } } : State).polls.get .a).silence = some 0 := by
  decide +kernel

/-- A write phase with a good check and with a bad one; and no write phase. -/
theorem witness_WritePhaseEndPlacesLinksAndSamples :
    let s := after (.pollStart .a) room
    On s ∧ s.profile.ok ∧ (s.polls.get .a).phase = .write
      ∧ (3 : BitVec 4).toNat = (fabricPorts.filter fun f => (0xC0000001 : BitVec 32).getLsbD (31 - f.val)).length % 16
      ∧ (4 : BitVec 4).toNat ≠ (fabricPorts.filter fun f => (0xC0000001 : BitVec 32).getLsbD (31 - f.val)).length % 16
      ∧ (room.polls.get .a).phase ≠ .write := by decide +kernel

theorem witness_CompletionDeliversAndStepsTheEpoch :
    let x : List (Option Port × GateCode) := [(some 0, .shut), (none, .opened), (some 5, .opened)]
    let s : State := { room with polls := { room.polls with a := { room.polls.a with phase := .read x } } }
    On s ∧ (x.filterMap (·.1)).Nodup ∧ (s.polls.get .a).phase = .read x ∧ (room.polls.get .a).phase = .idle := by decide +kernel

theorem witness_IndicatorsShowModeAndState :
    On room ∧ ({ room with led := { room.led with due := true } } : State).led.shifting = none
      ∧ ({ room with led := { room.led with shifting := some [.off] } } : State).led.shifting = some [.off] := by decide +kernel

/-- A step of a state that is in order, with the queue not empty. -/
theorem witness_PortTableStaysInOrder :
    let s : State := { listening with pending := [.listenTimeout 5] }
    s.portsOk ∧ step s = .next (after (.listenTimeout 5) { s with pending := [] }) :=
  ⟨by decide +kernel, step_after rfl (by decide +kernel)⟩

theorem witness_ProfileStaysInRange :
    let s : State := { armed room with pending := [.writeProfile .cp0 96 1 [0, 255]] }
    s.profile.ok ∧ step s = .next (after (.writeProfile .cp0 96 1 [0, 255]) { s with pending := [] }) :=
  ⟨by decide +kernel, step_after rfl (by decide +kernel)⟩

theorem witness_IncidentRingStaysInOrder :
    let s : State := { waits (ringOf 32) (.cause .loop none none none none) with pending := [.causeTaken 5 ⟨.loop, 0⟩] }
    s.ringOk ∧ step s = .next (after (.causeTaken 5 ⟨.loop, 0⟩) { s with pending := [] }) :=
  ⟨by decide +kernel, step_after rfl (by decide +kernel)⟩

theorem witness_EngineStaysInOrder :
    let s : State := { room with pending := [.msTick .portsFirst] }
    step s = .next (after (.msTick .portsFirst) { s with pending := [] }) ∧ s.listOk ∧ s.tapsOk ∧ s.tableOk ∧ s.heldOk
      ∧ s.countsOk ∧ restarted.heldOk ∧ restarted.running = false := by
  refine ⟨step_after rfl ?_, ?_, ?_, ?_, ?_, ?_, ?_, ?_⟩ <;> decide +kernel

end Sys2Proof.Machine
end

section
/-! PROOF. The presented code of R5, where a read phase samples it (R145), and the port table after reset (R2). -/

namespace Sys2Proof.Machine

open Sys2Proof.Spec

/-! ### The presented code by mode -/

theorem PortRec.presented_pinned {r : PortRec} (h : r.mode = .pinned) : r.presented = .opened := by
  simp only [PortRec.presented, h]

theorem PortRec.presented_held {r : PortRec} (h : r.mode = .held) : r.presented = .shut := by
  simp only [PortRec.presented, h]

/-! ### The end of a write phase -/

/-- Placing link bits leaves the profile, and with it the port map, in force. -/
@[simp] theorem State.placeLinks_profile (s : State) (l : TapId) (links : BitVec 32) :
    (s.placeLinks l links).profile = s.profile := by
  rw [placeLinks_frame]

/-- The state in which a read phase samples: the link bits are placed if the check is good, and a poll error is counted
if it is not (R144). -/
def State.judgeWrite (s : State) (l : TapId) (links : BitVec 32) (check : BitVec 4) : State :=
  if check.toNat = linkCheck (writeLinks links) then noteAttempts s (s.placeLinks l (writeLinks links))
  else s.census .pollErrors none 1

@[simp] theorem State.judgeWrite_profile (s : State) (l : TapId) (links : BitVec 32) (check : BitVec 4) :
    (s.judgeWrite l links check).profile = s.profile := by
  unfold State.judgeWrite
  split
  · rw [noteAttempts_profile, State.placeLinks_profile]
  · rw [State.census_profile]

/-- The end of a write phase begins a read phase, which samples the state that the judged write phase leaves (R145). -/
theorem exec_pollWriteEnd_of_write {s : State} {l : TapId} (links : BitVec 32) (check : BitVec 4)
    (hOn : On s) (hWrite : (s.polls.get l).phase = .write) :
    exec (.pollWriteEnd l links check) s = .next ((s.judgeWrite l links check).updPoll l fun x =>
      { x with phase := .read ((s.judgeWrite l links check).samples l) }) := by
  change execPollWriteEnd l links check s = _
  unfold execPollWriteEnd
  rw [powered_next hOn, hWrite]
  rfl

/-- The samples of a poll line: the presented code of each mapped port, OPEN for an unmapped one (R145). -/
theorem State.samples_eq_map (s : State) (l : TapId) :
    s.samples l = fabricPorts.map fun f => match s.profile.mapFabric l f with
      | some p => (some p, s.ports[p].presented)
      | none => (none, .opened) := by
  refine List.map_congr_left fun f _ => ?_
  cases s.profile.mapFabric l f <;> rfl

/-! ### The port table after reset -/

/-- After power-on reset every port has the reset record (R2). -/
@[simp] theorem reset_ports (p : Port) : State.reset.ports[p] = PortRec.reset :=
  Vector.getElem_replicate p.isLt

/-! ### The obligation -/

/-- Settles O31: by the mode for the table; the read phase samples the judged state, whose port map is that of the
state before. -/
theorem presentedCodeFollowsModeAndState : Obligations.PresentedCodeFollowsModeAndState := by
  unfold Obligations.PresentedCodeFollowsModeAndState
  refine ⟨fun r _ => ?_, fun s l links check hOn hWrite => ?_, fun p => ?_⟩
  · cases hMode : r.mode with
    | auto => cases hState : r.state <;> simp only [PortRec.presented, hMode, hState]
    | pinned => exact PortRec.presented_pinned hMode
    | held => exact PortRec.presented_held hMode
  · refine ⟨_, exec_pollWriteEnd_of_write links check hOn hWrite, ?_⟩
    rw [State.updPoll_polls, PerTap.get_set_self, State.updPoll_ports, ← State.judgeWrite_profile s l links check]
    exact congrArg PollPhase.read (State.samples_eq_map _ l)
  · rw [reset_ports]
    exact ⟨rfl, rfl, rfl⟩

end Sys2Proof.Machine
end

section
/-! PROOF. The weight of a flood copy (R32) and its counting in FLOOD_UNITS (R22, R165). -/

namespace Sys2Proof.Machine

open Sys2Proof.Spec

/-! ### The quotient rounded up -/

/-- The weight is the least number of blocks of 64 bytes that holds the clamped length and 20 bytes more (R32). -/
theorem weight_bounds (n : Nat) :
    64 * (weight n - 1) < clamp 64 1522 n + 20 ∧ clamp 64 1522 n + 20 ≤ 64 * weight n := by
  unfold weight
  omega

theorem clamp_mem {lo hi : Nat} (h : lo ≤ hi) (n : Nat) : lo ≤ clamp lo hi n ∧ clamp lo hi n ≤ hi :=
  ⟨Nat.le_max_left _ _, Nat.max_le.2 ⟨h, Nat.min_le_right _ _⟩⟩

theorem clamp_of_mem {lo hi n : Nat} (hlo : lo ≤ n) (hhi : n ≤ hi) : clamp lo hi n = n := by
  rw [clamp, Nat.min_eq_left hhi, Nat.max_eq_right hlo]

/-- The weight lies in 2..25 (R32). -/
theorem weight_mem (n : Nat) : 2 ≤ weight n ∧ weight n ≤ 25 := by
  obtain ⟨hlo, hhi⟩ := clamp_mem (lo := 64) (hi := 1522) (by decide) n
  obtain ⟨hBelow, hAbove⟩ := weight_bounds n
  omega

/-- Inside the clamp 64 bytes more are one flood unit more (R32). -/
theorem weight_add_64 {n : Nat} (hlo : 64 ≤ n) (hhi : n + 64 ≤ 1522) : weight (n + 64) = weight n + 1 := by
  rw [weight, weight, clamp_of_mem (by omega) hhi, clamp_of_mem hlo (by omega)]
  omega

/-! ### A counter and an event -/

theorem Counter.hit_of_kind_ne {c : Counter} {k : CensusKind} (h : c.kind ≠ k) (p : Option Port) (n : Nat) :
    c.hit k p n = c := by
  simp [Counter.hit, Counter.admits, h]

/-- A counter counts the events of its kind at the port of its filter (R165). -/
theorem Counter.hit_of_filter {c : Counter} {k : CensusKind} {p : Port} (hKind : c.kind = k) (hFilter : c.filter = some p)
    (n : Nat) : c.hit k (some p) n = { c with count := min (c.count + n) 4294967295 } := by
  simp [Counter.hit, Counter.admits, hKind, hFilter]

@[simp] theorem Counter.hit_kind (c : Counter) (k : CensusKind) (p : Option Port) (n : Nat) :
    (c.hit k p n).kind = c.kind := by
  unfold Counter.hit
  split <;> rfl

@[simp] theorem State.census_counter (s : State) (k : CensusKind) (p : Option Port) (n : Nat) (i : Fin 4) :
    (s.census k p n).counters[i] = s.counters[i].hit k p n := by
  rw [State.census_counters]
  exact Vector.getElem_ofFn i.isLt

/-! ### The meters count nothing in the census -/

@[simp] theorem State.portArrival_counters (s : State) (p : Port) (w : Nat) :
    (s.portArrival p w).counters = s.counters := rfl

@[simp] theorem State.classChoose_counters (s : State) : s.classChoose.counters = s.counters := by
  unfold State.classChoose
  split <;> rfl

@[simp] theorem State.classUpdate_counters (s : State) : s.classUpdate.counters = s.counters := by
  unfold State.classUpdate
  split
  · exact s.classChoose_counters
  · rfl

@[simp] theorem State.classArrival_counters (s : State) (p : Port) (w : Nat) :
    (s.classArrival p w).counters = s.counters := by
  unfold State.classArrival
  split
  · rfl
  · rw [State.classUpdate_counters]
    split <;> rfl

@[simp] theorem State.arrival_counters (s : State) (order : MeterOrder) (p : Port) (w : Nat) :
    (s.arrival order p w).counters = s.counters := by
  cases order with
  | portsFirst => rw [State.arrival, State.classArrival_counters, State.portArrival_counters]
  | classFirst => rw [State.arrival, State.portArrival_counters, State.classArrival_counters]

/-! ### A flood copy accepted -/

/-- An offer to the FIFO counts UNANALYSED at most (R24). -/
theorem State.offer_counter_of_kind_ne {s : State} {i : Fin 4} (h : s.counters[i].kind ≠ .unanalysed)
    (t : TapId) (f : TapFrame) (p : Port) : (s.offer t f p).counters[i] = s.counters[i] := by
  unfold State.offer
  split
  · simp only [State.updTap_counters]
  · simp only [State.raiseAttached_counters, State.census_counter, Counter.hit_of_kind_ne h]

/-- A counter of FLOOD_UNITS takes the weight of an accepted copy and no other event of it, whether the engine is RUNNING
or HELD (R22). -/
theorem State.accept_floodUnits {s : State} {i : Fin 4} (h : s.counters[i].kind = .floodUnits)
    (t : TapId) (f : TapFrame) (order : MeterOrder) (p : Port) :
    (s.accept t f order p).counters[i] = s.counters[i].hit .floodUnits (some p) (weight (f.length - 4)) := by
  have counted : ((s.census .floodFrames (some p) 1).census .floodUnits (some p) (weight (f.length - 4))).counters[i]
      = s.counters[i].hit .floodUnits (some p) (weight (f.length - 4)) := by
    have hOther : s.counters[i].kind ≠ .floodFrames := by rw [h]; decide
    rw [State.census_counter, State.census_counter, Counter.hit_of_kind_ne hOther]
  unfold State.accept
  split
  case isTrue hRunning =>
    rw [State.offer_counter_of_kind_ne]
    · simp only [State.arrival_counters, counted]
    · simp only [State.arrival_counters, counted, Counter.hit_kind, h]
      decide
  case isFalse hHeld => exact counted

/-- A frame that passes the four receive checks on an UP link is accepted at its ingress port (R22). -/
theorem exec_tapFrame_of_accepted {s : State} {t : TapId} {f : TapFrame} {p : Port} (order : MeterOrder) (hOn : On s)
    (hUp : (s.taps.get t).linkUp = true) (hCheck : receiveCheck s.profile t f = .accepted p) :
    exec (.tapFrame t f order) s = .next (s.accept t f order p) := by
  change execTapFrame t f order s = _
  rw [execTapFrame, powered_next hOn, if_pos hUp, hCheck]

/-! ### The obligation -/

/-- Settles O33: by the bounds of the quotient, and by the counting of an accepted copy. -/
theorem weightsFollowTheFabricLength : Obligations.WeightsFollowTheFabricLength := by
  unfold Obligations.WeightsFollowTheFabricLength
  refine ⟨fun n => ?_, fun n => weight_add_64, by decide, by decide, by decide, by decide, by decide, by decide,
    by decide, by decide, by decide, by decide, by decide, fun s t f order p i hOn hUp hCheck hKind hFilter => ?_⟩
  · obtain ⟨hBelow, hAbove⟩ := weight_bounds n
    exact ⟨hBelow, hAbove, weight_mem n⟩
  · refine ⟨_, exec_tapFrame_of_accepted order hOn hUp hCheck, ?_⟩
    rw [State.accept_floodUnits hKind, Counter.hit_of_filter hKind hFilter]

end Sys2Proof.Machine
end

section
/-! PROOF. The incident ring takes a record request (R154, R156, R157) and tells its readers (R159, R161, R163). -/

namespace Sys2Proof.Machine

/-! ### The flags of the ring in a flags field -/

/-- The nine flags stand on nine different bits (R185). -/
theorem EventFlag.bit_and_bit_eq_zero_iff (f g : EventFlag) : f.bit &&& g.bit = 0 ↔ g ≠ f := by
  cases f <;> cases g <;> decide

/-- Setting one flag in a flags field sets that flag and no other. -/
theorem EventFlag.or_bit_and_bit (w : Word16) (f g : EventFlag) :
    decide ((w ||| f.bit) &&& g.bit ≠ 0) = (decide (w &&& g.bit ≠ 0) || decide (g = f)) := by
  have hZero : (w ||| f.bit) &&& g.bit = 0 ↔ w &&& g.bit = 0 ∧ g ≠ f := by
    rw [BitVec.and_or_distrib_right, ← EventFlag.bit_and_bit_eq_zero_iff f g]
    exact BitVec.or_eq_zero_iff
  rw [← Bool.decide_or, decide_eq_decide, Ne, hZero, Decidable.not_and_iff_not_or_not, Decidable.not_not]

/-- A flags field with INCIDENT set, and RING_LOSS too where a record was lost (R156, R157). -/
def withRingFlags (lost : Bool) (w : Word16) : Word16 :=
  (if lost then w ||| EventFlag.ringLoss.bit else w) ||| EventFlag.incident.bit

theorem withRingFlags_and_bit (lost : Bool) (w : Word16) (f : EventFlag) :
    decide (withRingFlags lost w &&& f.bit ≠ 0) =
      (decide (w &&& f.bit ≠ 0) || decide (f = .incident) || (lost && decide (f = .ringLoss))) := by
  rw [withRingFlags, EventFlag.or_bit_and_bit]
  cases lost with
  | false => rw [if_neg Bool.false_ne_true, Bool.false_and, Bool.or_false]
  | true => rw [if_pos rfl, EventFlag.or_bit_and_bit, Bool.true_and, Bool.or_right_comm]

/-! ### An attached port when the ring takes a request -/

/-- A port that loses the oldest record stays as far back as it was, counts one more record lost, and the copy it may be
shifting out is marked; any other port has one more to read. The flags set count as events since a capture too (R155 to
R157, R159, R163). -/
theorem CtlRec.afterRecord_eq (c : CtlRec) (lost : Bool) :
    c.afterRecord lost =
      { c with
        unread := if lost then c.unread else c.unread + 1
        lost := if lost then min (c.lost + 1) 255 else c.lost
        answer := if lost then c.answer.overwritten else c.answer
        flags := withRingFlags lost c.flags
        recurred := withRingFlags lost c.recurred } := by
  cases lost <;> rfl

/-! ### The control ports after a record -/

/-- The oldest held record is overwritten and the port had not read it (R157). -/
def State.losesOldest (s : State) (cp : CtlPort) : Bool :=
  decide (Config.ringRecords ≤ s.ring.length) && decide ((s.cps.get cp).unread = s.ring.length)

/-- Each attached port is told of the record (R156). -/
theorem State.record_cps_of_attached {s : State} {cp : CtlPort} (h : s.attached cp = true) (r : IncidentReq) :
    (s.record r).cps.get cp = (s.cps.get cp).afterRecord (s.losesOldest cp) := by
  cases cp with
  | cp0 => rfl
  | cp1 => exact if_pos h

/-- A port that is not attached is told nothing (R160). -/
theorem State.record_cps_of_detached {s : State} {cp : CtlPort} (h : s.attached cp = false) (r : IncidentReq) :
    (s.record r).cps.get cp = s.cps.get cp := by
  cases cp with
  | cp0 => cases h
  | cp1 => exact if_neg (Bool.not_eq_true _ ▸ h)

/-- No attached port stands further back than the furthest one (R155). -/
theorem State.unread_le_furthest {s : State} {cp : CtlPort} (h : s.attached cp = true) :
    (s.cps.get cp).unread ≤ s.furthest := by
  cases cp with
  | cp0 => exact Nat.le_max_left _ _
  | cp1 =>
    have hAttached : s.profile.cp1Attached = true := h
    rw [State.furthest, if_pos hAttached]
    exact Nat.le_max_right _ _

/-- A cursor in order follows held records only (R155). -/
theorem State.unread_le_ring {s : State} {cp : CtlPort} (hRing : s.ringOk) (h : s.attached cp = true) :
    (s.cps.get cp).unread ≤ s.ring.length := by
  obtain ⟨-, -, hFurthest, -⟩ := hRing
  exact hFurthest ▸ State.unread_le_furthest h

/-- An attached port loses a record exactly when it has 32 to read (R157). -/
theorem State.losesOldest_eq {s : State} {cp : CtlPort} (hRing : s.ringOk) (h : s.attached cp = true) :
    s.losesOldest cp = decide ((s.cps.get cp).unread = 32) := by
  have hUnread := State.unread_le_ring hRing h
  have hLength : s.ring.length ≤ 32 := hRing.1
  rw [State.losesOldest, ← Bool.decide_and, decide_eq_decide, Config.ringRecords]
  omega

/-! ### The ring after a record -/

/-- Only the ring, its next number and the control ports change. -/
theorem State.record_frame (s : State) (r : IncidentReq) :
    s.record r = { s with ring := (s.record r).ring, nextNumber := s.nextNumber + 1, cps := (s.record r).cps } := rfl

/-- The new record is newest, and the oldest goes where 32 are held (R156, R157). -/
theorem State.record_ring_of_le {s : State} (h : s.ring.length ≤ 32) (r : IncidentReq) :
    (s.record r).ring = (if s.ring.length = 32 then s.ring.drop 1 else s.ring) ++ [s.incidentOf r] := by
  have hFull : Config.ringRecords ≤ s.ring.length ↔ s.ring.length = 32 := ⟨fun h' => Nat.le_antisymm h h', fun h' => h'.ge⟩
  rw [record_ring]
  simp only [hFull, List.drop_one]

theorem State.record_ring_length {s : State} (h : s.ring.length ≤ 32) (r : IncidentReq) :
    (s.record r).ring.length = min (s.ring.length + 1) 32 := by
  rw [State.record_ring_of_le h, List.length_append, List.length_singleton]
  split
  case isTrue hFull => rw [List.length_drop]; omega
  case isFalse hRoom => omega

/-! ### The obligation -/

/-- Settles O22: by the ring after a record, and by each attached port's record as it loses its oldest or not. -/
theorem recordIsPlacedNewest : Obligations.RecordIsPlacedNewest := by
  unfold Obligations.RecordIsPlacedNewest
  intro s r hRing
  have hLength : s.ring.length ≤ 32 := hRing.1
  refine ⟨State.record_frame s r, State.record_ring_length hLength r, State.record_ring_of_le hLength r,
    fun cp hDetached => State.record_cps_of_detached hDetached r, fun cp hAttached => ?_⟩
  have hUnread : (s.cps.get cp).unread ≤ 32 := (State.unread_le_ring hRing hAttached).trans hLength
  rw [State.record_cps_of_attached hAttached, State.losesOldest_eq hRing hAttached, CtlRec.afterRecord_eq]
  refine ⟨?_, withRingFlags_and_bit _ _, withRingFlags_and_bit _ _⟩
  have hNext : (if decide ((s.cps.get cp).unread = 32) then (s.cps.get cp).unread else (s.cps.get cp).unread + 1)
      = min ((s.cps.get cp).unread + 1) 32 := by
    simp only [decide_eq_true_eq]
    split <;> omega
  rw [hNext]
  congr 1
  cases (s.cps.get cp).answer with
  | incidents a => rfl
  | _ => exact ite_self _

end Sys2Proof.Machine
end

section
/-! PROOF. What each command may write: the parts of the state, and for each command those outside which it leaves the
state as it was. Every statement on what a step keeps starts from here. -/

namespace Sys2Proof.Machine

open Sys2Proof.Spec

/-! ### Parts of the state -/

/-- The parts of the state that are written together. `host` is what no command writes: the queue and the unit number. -/
inductive Part where
  | host
  | time
  | running
  | profile
  | store
  | ports
  | taps
  | attempts
  | analysing
  | meter
  | slots
  | scheduler
  | probes
  | urgent
  | table
  | decay
  | find
  | gateReqs
  | polls
  | epoch
  | ring
  | counters
  | led
  | cps
  | holdOwner
  deriving DecidableEq

/-- The record of a port (R2): its index is checked here once, and not at each mention, which costs the one text much memory. -/
abbrev State.port (s : State) (p : Port) : PortRec := s.ports[p]

/-- A tap but for the serving attempts that are pending for it (R63, log entry 4). -/
def TapRec.bare (x : TapRec) : TapRec := { x with attempts := 0 }

/-- A part of the state is the same in two states. -/
def State.agree (s t : State) : Part → Prop
  | .host => t.pending = s.pending ∧ t.unitNumber = s.unitNumber
  | .time => t.msTime = s.msTime ∧ t.tenthDue = s.tenthDue ∧ t.tickBegun = s.tickBegun
  | .running => t.running = s.running
  | .profile => t.profile = s.profile
  | .store => t.store = s.store
  | .ports => t.ports = s.ports
  | .taps => t.taps.a.bare = s.taps.a.bare ∧ t.taps.b.bare = s.taps.b.bare ∧ t.lastTaken = s.lastTaken
  | .attempts => t.taps.a.attempts = s.taps.a.attempts ∧ t.taps.b.attempts = s.taps.b.attempts
  | .analysing => t.analysing = s.analysing
  | .meter => t.classLevel = s.classLevel ∧ t.classTimer = s.classTimer
  | .slots => t.slotTimer = s.slotTimer ∧ t.slotIndex = s.slotIndex
  | .scheduler => t.lastTapServed = s.lastTapServed ∧ t.firstDeferred = s.firstDeferred ∧ t.seqCounter = s.seqCounter
      ∧ t.runNumber = s.runNumber ∧ t.lifeLimit = s.lifeLimit
  | .probes => t.probes = s.probes
  | .urgent => t.urgent = s.urgent
  | .table => t.table = s.table ∧ t.sweep = s.sweep
  | .decay => t.decayTimer = s.decayTimer
  | .find => t.find = s.find
  | .gateReqs => t.gateReqs = s.gateReqs
  | .polls => t.polls = s.polls
  | .epoch => t.epoch = s.epoch
  | .ring => t.ring = s.ring ∧ t.nextNumber = s.nextNumber
  | .counters => t.counters = s.counters
  | .led => t.led = s.led
  | .cps => t.cps = s.cps
  | .holdOwner => t.holdOwner = s.holdOwner

/-- Every part of the state outside `W` is the same in both states. -/
def Frame (W : List Part) (s t : State) : Prop := ∀ P, P ∉ W → s.agree t P

theorem State.agree_refl (s : State) (P : Part) : s.agree s P := by cases P <;> simp [State.agree]

theorem State.agree_trans {s t u : State} {P : Part} (h : s.agree t P) (h' : t.agree u P) : s.agree u P := by
  cases P <;> simp_all [State.agree]

theorem Frame.refl {W : List Part} (s : State) : Frame W s s := fun P _ => s.agree_refl P

theorem Frame.trans {W : List Part} {s t u : State} (h : Frame W s t) (h' : Frame W t u) : Frame W s u :=
  fun P hP => State.agree_trans (h P hP) (h' P hP)

theorem Frame.mono {V W : List Part} {s t : State} (h : Frame V s t) (hW : V ⊆ W) : Frame W s t :=
  fun P hP => h P fun hV => hP (hW hV)

/-! Which parts a list names is decided by evaluation. -/

theorem notIn {W : List Part} {P : Part} (h : W.contains P = false) : P ∉ W := fun hP => by
  rw [List.contains_iff_mem.mpr hP] at h
  cases h

theorem isIn {W : List Part} {P : Part} (h : W.contains P = true) : P ∈ W := List.contains_iff_mem.mp h

theorem allIn {V W : List Part} (h : V.all W.contains = true) : V ⊆ W := fun P hP =>
  List.contains_iff_mem.mp (List.all_eq_true.mp h P hP)

theorem noneIn {V W : List Part} (h : (V.all fun P => !W.contains P) = true) : ∀ P ∈ V, P ∉ W := fun P hP =>
  notIn ((Bool.not_eq_true' _).mp (List.all_eq_true.mp h P hP))

theorem notBoth {W : List Part} {P Q : Part} (h : (W.contains P && !W.contains Q) = false) (hP : P ∈ W) (hQ : Q ∉ W) :
    False := by
  have hQ' : W.contains Q = false := by rwa [← Bool.not_eq_true, List.contains_iff_mem]
  rw [List.contains_iff_mem.mpr hP, hQ'] at h
  cases h

/-- The second state with the parts that a list names taken from the first. -/
def State.over (s : State) (W : List Part) (t : State) : State :=
  let kept {α : Type} (P : Part) (x y : α) : α := if W.contains P then x else y
  { resetLow := s.resetLow
    msTime := kept .time s.msTime t.msTime
    tenthDue := kept .time s.tenthDue t.tenthDue
    tickBegun := kept .time s.tickBegun t.tickBegun
    running := kept .running s.running t.running
    unitNumber := kept .host s.unitNumber t.unitNumber
    profile := kept .profile s.profile t.profile
    store := kept .store s.store t.store
    ports := kept .ports s.ports t.ports
    taps :=
      ⟨{ kept .taps s.taps.a t.taps.a with attempts := kept .attempts s.taps.a.attempts t.taps.a.attempts },
        { kept .taps s.taps.b t.taps.b with attempts := kept .attempts s.taps.b.attempts t.taps.b.attempts }⟩
    lastTaken := kept .taps s.lastTaken t.lastTaken
    analysing := kept .analysing s.analysing t.analysing
    classLevel := kept .meter s.classLevel t.classLevel
    classTimer := kept .meter s.classTimer t.classTimer
    slotTimer := kept .slots s.slotTimer t.slotTimer
    slotIndex := kept .slots s.slotIndex t.slotIndex
    lastTapServed := kept .scheduler s.lastTapServed t.lastTapServed
    firstDeferred := kept .scheduler s.firstDeferred t.firstDeferred
    seqCounter := kept .scheduler s.seqCounter t.seqCounter
    runNumber := kept .scheduler s.runNumber t.runNumber
    probes := kept .probes s.probes t.probes
    lifeLimit := kept .scheduler s.lifeLimit t.lifeLimit
    urgent := kept .urgent s.urgent t.urgent
    table := kept .table s.table t.table
    decayTimer := kept .decay s.decayTimer t.decayTimer
    sweep := kept .table s.sweep t.sweep
    find := kept .find s.find t.find
    gateReqs := kept .gateReqs s.gateReqs t.gateReqs
    polls := kept .polls s.polls t.polls
    epoch := kept .epoch s.epoch t.epoch
    ring := kept .ring s.ring t.ring
    nextNumber := kept .ring s.nextNumber t.nextNumber
    counters := kept .counters s.counters t.counters
    led := kept .led s.led t.led
    cps := kept .cps s.cps t.cps
    holdOwner := kept .holdOwner s.holdOwner t.holdOwner
    pending := kept .host s.pending t.pending }

theorem State.over_agree (s t : State) {W : List Part} {P : Part} (hP : P ∉ W) : (s.over W t).agree t P := by
  have h : W.contains P = false := by rwa [← Bool.not_eq_true, List.contains_iff_mem]
  cases P <;> simp only [State.agree, State.over, h, TapRec.bare, Bool.false_eq_true, if_false, and_self]

/-- A frame as one equation: the change undone on the parts of the list gives the first state back. -/
theorem Frame.of {W : List Part} {s t : State} (h : s.over W t = s) : Frame W s t := fun P hP => by
  have := s.over_agree t hP
  rwa [h] at this

/-- A choice of two states, each in the frame. -/
theorem Frame.ite {W : List Part} {s t u : State} {c : Prop} [Decidable c] (ht : Frame W s t) (hu : Frame W s u) :
    Frame W s (if c then t else u) := by
  split
  · exact ht
  · exact hu

/-- A fold of changes, each in the frame. -/
theorem Frame.foldl {W : List Part} {α : Type} {f : State → α → State} (hf : ∀ s x, Frame W s (f s x)) (xs : List α)
    (s : State) : Frame W s (xs.foldl f s) := by
  induction xs generalizing s with
  | nil => exact .refl s
  | cons x xs ih => exact (hf s x).trans (ih _)

/-! ### The frames of the shared operations -/

section
variable (s : State)

theorem frame_updPort (p : Port) (f : PortRec → PortRec) : Frame [.ports] s (s.updPort p f) := .of rfl

theorem frame_updTap (t : TapId) (f : TapRec → TapRec) : Frame [.taps, .attempts] s (s.updTap t f) := .of rfl

theorem frame_addAttempts (t : TapId) (n : Nat) : Frame [.attempts] s (s.addAttempts t n) := by
  cases t <;> exact .of rfl

theorem frame_updPoll (l : TapId) (f : PollRec → PollRec) : Frame [.polls] s (s.updPoll l f) := .of rfl

theorem frame_updCtl (cp : CtlPort) (f : CtlRec → CtlRec) : Frame [.cps] s (s.updCtl cp f) := .of rfl

theorem frame_hand (p : Option Port) (k : GateReqKind) : Frame [.gateReqs] s (s.hand p k) := .of rfl

theorem frame_handUrgent (p : Port) (c : Bool) : Frame [.urgent] s (s.handUrgent p c) := .of rfl

theorem frame_census (k : CensusKind) (p : Option Port) (n : Nat) : Frame [.counters] s (s.census k p n) := .of rfl

theorem frame_raiseOn (cp : CtlPort) (f : EventFlag) : Frame [.cps] s (s.raiseOn cp f) := .of rfl

theorem frame_raiseAttached (f : EventFlag) : Frame [.cps] s (s.raiseAttached f) := .of rfl

theorem frame_record (r : IncidentReq) : Frame [.ring, .cps] s (s.record r) := .of rfl

theorem frame_freeRead : Frame [.ring] s s.freeRead := .of rfl

theorem frame_listen (p : Port) : Frame [.ports, .urgent, .gateReqs] s (s.listen p) := .of rfl

theorem frame_answer (cp : CtlPort) (st : Status) (bytes : List Byte) (a : Answer) :
    Frame [.cps] s (s.answer cp st bytes a) := frame_updCtl s cp _

theorem frame_await (cp : CtlPort) (a : Answer) : Frame [.cps] s (s.await cp a) := frame_updCtl s cp _

theorem frame_respond (cp : CtlPort) (bytes : List Byte) (a : Answer) : Frame [.cps] s (s.respond cp bytes a) :=
  frame_updCtl s cp _

-- The text is compiled as one, and its memory is limited: here, as at each such option below, the proofs above are awaited.
set_option Elab.async false in
theorem frame_noteAttempts (before : State) : Frame [.attempts] s (noteAttempts before s) :=
  (frame_addAttempts s .a _).trans (frame_addAttempts _ .b _)

theorem frame_entryFreed : Frame [.attempts] s s.entryFreed := (frame_addAttempts s .a _).trans (frame_addAttempts _ .b _)

/-- A change of ports and requests with the attempts it makes. -/
theorem frame_note {W : List Part} {s t : State} (h : Frame W s t) (hW : .attempts ∈ W) (before : State) :
    Frame W s (noteAttempts before t) := h.trans ((frame_noteAttempts t before).mono (by simpa using hW))

/-- What a control port is answered after a change. -/
theorem frame_answered {W : List Part} {s t : State} (h : Frame W s t) (hW : .cps ∈ W) (cp : CtlPort) (st : Status)
    (bytes : List Byte) (a : Answer) : Frame W s (t.answer cp st bytes a) :=
  h.trans ((frame_answer t cp st bytes a).mono (by simpa using hW))

theorem frame_report (p : Port) (r : IncidentReq) : Frame [.ports, .ring, .cps] s (s.report p r) := by
  rcases report_cases s p r with ⟨-, h⟩ | ⟨-, h⟩ <;> rw [h]
  · exact .refl s
  · exact ((frame_updPort s p _).mono (allIn rfl)).trans ((frame_record _ r).mono (allIn rfl))

theorem frame_manual {W : List Part} {s before t : State} (h : Frame W s t) (hW : [.ring, .cps] ⊆ W) (p : Port)
    (a : IncAction) : Frame W s (State.manual before t p a) := by
  rcases manual_cases before t p a with h' | h' <;> rw [h']
  · exact h
  · exact h.trans ((frame_record t _).mono hW)

/-- A command of a powered part, or nothing. -/
theorem frame_powered {W : List Part} {s t u : State} (h : powered s t = .next u) (ht : Frame W s t) : Frame W s u := by
  rcases powered_cases h with ⟨-, rfl⟩ | ⟨-, rfl⟩
  · exact ht
  · exact .refl _

/-- A control command writes its control port and what its own effect writes. -/
theorem frame_command {W : List Part} {cp : CtlPort} {s run u : State} {checks : List (Bool × Status)}
    (h : command cp s checks run = .next u) (hW : .cps ∈ W) (hrun : Frame W s run) : Frame W s u := by
  rcases command_cases h with ⟨-, rfl⟩ | ⟨st, -, rfl⟩ | ⟨-, rfl⟩
  · exact .refl _
  · exact frame_answered (.refl s) hW _ _ _ _
  · exact hrun

/-- A property that the state has and the state computed has is one of every answer. -/
theorem keeps_powered {P : State → Prop} {s t u : State} (h : powered s t = .next u) (hs : P s) (ht : P t) : P u := by
  rcases powered_cases h with ⟨-, rfl⟩ | ⟨-, rfl⟩
  · exact ht
  · exact hs

/-- A property that the state has, with any answer on the control port, and that the command's own effect has, is one of
every answer. -/
theorem keeps_command {P : State → Prop} {cp : CtlPort} {s run u : State} {checks : List (Bool × Status)}
    (h : command cp s checks run = .next u) (hs : P s) (ha : ∀ st, P (s.answer cp st [] .fixed)) (hrun : P run) : P u := by
  rcases command_cases h with ⟨-, rfl⟩ | ⟨st, -, rfl⟩ | ⟨-, rfl⟩
  · exact hs
  · exact ha st
  · exact hrun

/-- A property that the state has and that the act gives a state with one request less is one of the state after. -/
theorem keeps_takeRequest {P : State → Prop} {s : State} (want : GateReq → Bool) (turn : Nat)
    {act : State → GateReqKind → State} (hs : P s)
    (ha : ∀ rest k, s.running = true → P (act { s with gateReqs := rest } k)) : P (s.takeRequest want turn act) := by
  rcases takeRequest_cases s want turn act with h | ⟨r, rest, hr, -, h⟩ <;> rw [h]
  · exact hs
  · exact ha rest r.kind hr

/-- Taking a request writes the queue of requests and what the act writes. -/
theorem frame_takeRequest {W : List Part} (want : GateReq → Bool) (turn : Nat) {act : State → GateReqKind → State}
    (hW : .gateReqs ∈ W) (ha : ∀ s k, Frame W s (act s k)) : Frame W s (s.takeRequest want turn act) := by
  rcases takeRequest_cases s want turn act with h | ⟨r, rest, -, -, h⟩ <;> rw [h]
  · exact .refl s
  · refine Frame.trans (fun P hP => ?_) (ha _ _)
    cases P <;> simp_all [State.agree]

end

/-! ### The frames of the blocks' operations -/

section
variable (s : State)

theorem frame_setLastCause (p : Port) (c : Cause) : Frame [.ports, .ring, .cps] s (s.setLastCause p c) :=
  (frame_updPort s p _).mono (allIn rfl)

theorem frame_applyAction (p : Port) (c : LadderCause) (x : CauseParts) (a : Action) :
    Frame [.ports, .ring, .cps] s (s.applyAction p c x a) := by
  cases a with
  | ignore => exact .refl s
  | report => exact frame_report s p _
  | cut =>
    exact .ite (((frame_updPort s p _).mono (allIn rfl)).trans ((frame_record _ _).mono (allIn rfl))) (frame_report s p _)
  | shut =>
    exact .ite (((frame_updPort s p _).mono (allIn rfl)).trans ((frame_record _ _).mono (allIn rfl))) (frame_report s p _)

theorem frame_applyCause (p : Port) (c : LadderCause) (x : CauseParts) :
    Frame [.ports, .ring, .cps] s (s.applyCause p c x) := by
  unfold State.applyCause
  split
  · exact .refl s
  · exact .refl s
  · exact (frame_setLastCause s p _).trans (frame_applyAction _ p c x _)
  · exact (frame_setLastCause s p _).trans (frame_applyAction _ p c x _)

theorem frame_takePinnedLoop (p q : Port) : Frame [.ports, .ring, .cps] s (s.takePinnedLoop p q) :=
  .ite (.refl s) ((frame_setLastCause s p _).trans (frame_report _ p _))

theorem frame_listenOrDown (p : Port) : Frame [.ports, .urgent, .gateReqs] s (s.listenOrDown p) := by
  have h : Frame [.ports, .urgent, .gateReqs] s (s.updPort p fun r => { r with mode := .auto, confirm := false }) :=
    (frame_updPort s p _).mono (allIn rfl)
  exact .ite (h.trans (frame_listen _ p)) (h.trans ((frame_updPort _ p _).mono (allIn rfl)))

theorem frame_releasePort (p : Port) : Frame [.ports, .urgent, .gateReqs] s (s.releasePort p) := by
  unfold State.releasePort
  split
  · exact .ite (frame_listen s p) (.refl s)
  · exact frame_listenOrDown s p
  · exact .refl s

/-- What a manual change writes. -/
abbrev manualParts : List Part := [.ports, .urgent, .gateReqs, .ring, .cps, .attempts]

theorem frame_manualRelease (p : Port) (forgive : Bool) (a : IncAction) :
    Frame manualParts s (s.manualRelease p forgive a) :=
  frame_manual (((frame_releasePort s p).mono (allIn rfl)).trans ((frame_updPort _ p _).mono (allIn rfl))) (by simp) p a

theorem frame_manualReleaseAll (forgive : Bool) : Frame manualParts s (s.manualReleaseAll forgive) :=
  Frame.foldl (fun s p => frame_manualRelease s p forgive _) allPorts s

theorem frame_manualHeld (p : Port) : Frame manualParts s (s.manualHeld p) :=
  .ite (.refl s) (frame_manual ((frame_updPort s p _).mono (allIn rfl)) (by simp) p _)

theorem frame_manualPinned (p : Port) : Frame manualParts s (s.manualPinned p) :=
  .ite (.refl s) (frame_manual ((frame_updPort s p _).mono (allIn rfl)) (by simp) p _)

theorem frame_manualAuto (p : Port) : Frame manualParts s (s.manualAuto p) :=
  .ite (.refl s) (frame_manual ((frame_listenOrDown s p).mono (allIn rfl)) (by simp) p _)

theorem frame_takeLinkUp (p : Port) : Frame [.gateReqs, .ports, .urgent, .attempts] s (s.takeLinkUp p) := by
  unfold State.takeLinkUp
  split
  · exact .ite (frame_note ((frame_listen s p).mono (allIn rfl)) (isIn rfl) s) (.refl s)
  · exact (frame_updPort s p _).mono (allIn rfl)
  · exact .refl s

theorem frame_takeLinkDown (p : Port) : Frame [.gateReqs, .ports] s (s.takeLinkDown p) := by
  unfold State.takeLinkDown
  split
  · exact .ite (.refl s) ((frame_updPort s p _).mono (allIn rfl))
  · exact (frame_updPort s p _).mono (allIn rfl)
  · exact .refl s

theorem frame_takeWatch (p : Port) : Frame [.gateReqs, .ports, .attempts] s (s.takeWatch p) :=
  .ite (frame_note ((frame_updPort s p _).mono (allIn rfl)) (isIn rfl) s) (.refl s)

theorem frame_evidence (p : Port) (partner : Option Port) :
    Frame [.ports, .gateReqs, .urgent] s (s.evidence p partner) := by
  have up := (frame_updPort s p fun r => { r with echoScore := min ((s.port p).echoScore + 1) 15 }).mono
    (W := [.ports, .gateReqs, .urgent]) (by simp)
  have told := Frame.ite (c := (s.port p).echoScore = 0)
    (up.trans ((frame_hand _ (some p) .echoFromZero).mono (allIn rfl))) up
  have asked := told.trans ((frame_handUrgent _ p true).mono (allIn rfl))
  exact .ite (.refl s) (.ite (asked.trans ((frame_hand _ _ _).mono (allIn rfl))) asked)

/-- What the echo unit writes when it enters a frame. -/
abbrev echoParts : List Part := [.table, .ports, .gateReqs, .urgent, .counters]

theorem frame_echoEvidence (p q : Port) : Frame echoParts s (s.echoEvidence p q) :=
  (((frame_evidence s p _).mono (allIn rfl)).trans ((frame_evidence _ q _).mono (allIn rfl))).trans
    ((frame_census _ _ _ _).mono (allIn rfl))

theorem frame_repeatEvidence (q : Port) : Frame echoParts s (s.repeatEvidence q) :=
  ((frame_evidence s q _).mono (allIn rfl)).trans ((frame_census _ _ _ _).mono (allIn rfl))

theorem frame_table (t : List (Nat × FpEntry)) : Frame [.table] s { s with table := t } := .of rfl

theorem frame_echoEnter (x : Slot) : Frame echoParts s (s.echoEnter x) := by
  have put (t) : Frame echoParts s { s with table := t } := (frame_table s t).mono (allIn rfl)
  unfold State.echoEnter
  dsimp only
  split
  · exact .ite (.ite ((put _).trans (frame_repeatEvidence _ _)) (put _)) ((put _).trans (frame_echoEvidence _ _ _))
  · exact .ite ((put _).trans ((frame_census _ _ _ _).mono (allIn rfl))) (put _)

set_option Elab.async false in
theorem frame_hold (x : Slot) : Frame [.probes, .analysing] s (s.hold x) := by
  unfold State.hold
  dsimp only
  rw [noteReturn_frame]
  exact .of rfl

theorem frame_takeFrame : Frame [.taps, .attempts, .probes, .analysing] s s.takeFrame := by
  rcases takeFrame_cases s with h | ⟨t, x, rest, -, -, -, h⟩ <;> rw [h]
  · exact .refl s
  · exact Frame.trans (.of (by rfl)) ((frame_hold _ x).mono (allIn rfl))

theorem frame_conclude (w : Working) : Frame echoParts s (s.conclude w) := by
  unfold State.conclude
  split
  · exact frame_echoEnter s _
  · exact ((frame_census s _ _ _).mono (allIn rfl)).trans (frame_echoEnter _ _)
  · exact .ite ((frame_census s _ _ _).mono (allIn rfl))
      (((frame_census s _ _ _).mono (allIn rfl)).trans ((frame_hand _ _ _).mono (allIn rfl)))
  · exact (frame_census s _ _ _).mono (allIn rfl)
  · exact ((frame_census s _ _ _).mono (allIn rfl)).trans ((frame_hand _ _ _).mono (allIn rfl))

theorem frame_portArrival (p : Port) (w : Nat) : Frame [.ports, .gateReqs] s (s.portArrival p w) := .of rfl

theorem frame_classChoose : Frame [.gateReqs] s s.classChoose := by
  unfold State.classChoose
  split <;> exact frame_hand s _ _

theorem frame_meter (level : Nat) (timer : Option Nat) :
    Frame [.meter] s { s with classLevel := level, classTimer := timer } := .of rfl

theorem frame_classUpdate : Frame [.gateReqs, .meter] s s.classUpdate :=
  .ite (((frame_classChoose s).mono (allIn rfl)).trans ((frame_meter _ _ _).mono (allIn rfl))) (.refl s)

theorem frame_classArrival (p : Port) (w : Nat) : Frame [.gateReqs, .meter, .cps] s (s.classArrival p w) := by
  have warned := Frame.ite (W := [.gateReqs, .meter, .cps])
    (c := crosses s.classLevel (min (s.classLevel + w) Config.classMax) s.profile.wc)
    ((frame_raiseAttached s .classWarn).mono (allIn rfl)) (.refl s)
  exact .ite (.refl s) ((warned.trans ((frame_meter _ _ _).mono (allIn rfl))).trans ((frame_classUpdate _).mono (allIn rfl)))

theorem frame_arrival (order : MeterOrder) (p : Port) (w : Nat) :
    Frame [.ports, .gateReqs, .meter, .cps] s (s.arrival order p w) := by
  cases order with
  | portsFirst => exact ((frame_portArrival s p w).mono (allIn rfl)).trans ((frame_classArrival _ p w).mono (allIn rfl))
  | classFirst => exact ((frame_classArrival s p w).mono (allIn rfl)).trans ((frame_portArrival _ p w).mono (allIn rfl))

theorem frame_drainPorts : Frame [.ports, .gateReqs] s s.drainPorts := by
  unfold State.drainPorts
  exact .of rfl

theorem frame_drainClass : Frame [.gateReqs, .meter] s s.drainClass :=
  ((frame_meter s _ _).mono (allIn rfl)).trans (frame_classUpdate _)

theorem frame_drain (order : MeterOrder) : Frame [.ports, .gateReqs, .meter] s (s.drain order) := by
  cases order with
  | portsFirst => exact ((frame_drainPorts s).mono (allIn rfl)).trans ((frame_drainClass _).mono (allIn rfl))
  | classFirst => exact ((frame_drainClass s).mono (allIn rfl)).trans ((frame_drainPorts _).mono (allIn rfl))

theorem frame_classExpiry : Frame [.gateReqs, .meter] s s.classExpiry := by
  rcases classExpiry_cases s with ⟨-, h⟩ | ⟨-, -, -, h⟩ | ⟨-, -, -, h⟩ <;> rw [h]
  · exact .refl s
  · exact (frame_meter s _ _).mono (allIn rfl)
  · exact ((frame_classChoose s).mono (allIn rfl)).trans ((frame_meter _ _ _).mono (allIn rfl))

/-- What the beginning of a tick writes. -/
abbrev tickParts : List Part := [.time, .polls, .store, .led, .meter, .slots, .decay, .scheduler, .ports]

theorem frame_beginTick : Frame tickParts s s.beginTick := by
  unfold State.beginTick
  exact .ite (.of rfl) (.of rfl)

theorem frame_tickBegun (b : Bool) : Frame [.time] s { s with tickBegun := b } := .of rfl

theorem frame_sweepVisit : Frame [.table] s s.sweepVisit := .of rfl

theorem frame_serve (t : TapId) (p : Port) : Frame [.ports, .taps, .attempts, .probes, .scheduler] s (s.serve t p) := by
  unfold State.serve
  split
  · exact .refl s
  · exact .of rfl

theorem frame_attempt (t : TapId) : Frame [.ports, .taps, .attempts, .probes, .scheduler, .counters] s (s.attempt t) := by
  unfold State.attempt
  split
  · exact (frame_updTap s t _).mono (allIn rfl)
  · exact (frame_serve s t _).mono (allIn rfl)
  · exact .of rfl

theorem frame_probes (ps : List ProbeEntry) : Frame [.probes] s { s with probes := ps } := .of rfl

theorem frame_unsent (e : ProbeEntry) : Frame [.ports, .attempts] s (s.unsent e) :=
  (frame_note (.ite ((frame_updPort s e.egress _).mono (allIn rfl)) (.refl s)) (isIn rfl) s).trans
    ((frame_entryFreed _).mono (allIn rfl))

theorem frame_retireUnsent (sequence : Word16) : Frame [.ports, .attempts, .probes] s (s.retireUnsent sequence) := by
  unfold State.retireUnsent
  split
  · exact .refl s
  · exact ((frame_probes s _).mono (allIn rfl)).trans ((frame_unsent _ _).mono (allIn rfl))

theorem frame_retireSent (e : ProbeEntry) : Frame [.ports, .gateReqs, .urgent, .attempts] s (s.retireSent e) :=
  .ite (.ite (.ite (((frame_updPort s e.egress _).mono (allIn rfl)).trans ((frame_hand _ _ _).mono (allIn rfl)))
      (frame_note ((frame_updPort s e.egress _).mono (allIn rfl)) (isIn rfl) s)) (.refl s))
    (.ite ((frame_handUrgent s e.egress false).mono (allIn rfl)) (.refl s))

theorem frame_placeLinks (l : TapId) (links : BitVec 32) : Frame [.ports, .gateReqs] s (s.placeLinks l links) := by
  rw [placeLinks_frame]
  exact .of rfl

theorem frame_deliver (samples : List (Option Port × GateCode)) : Frame [.ports] s (s.deliver samples) := by
  rw [deliver_frame]
  exact .of rfl

theorem frame_becomeRunning : Frame [.running, .ports, .urgent, .slots, .decay, .attempts] s s.becomeRunning := by
  exact frame_note (.of (by rfl)) (isIn rfl) s

/-- What an engine restart writes. -/
abbrev restartParts : List Part := [.running, .ports, .taps, .attempts, .analysing, .meter, .slots, .scheduler, .probes, .urgent,
  .table, .decay, .find, .gateReqs, .epoch, .cps, .holdOwner]

theorem frame_restart : Frame restartParts s s.restart := by
  unfold State.restart
  rw [abortFind_frame]
  exact .of rfl

theorem frame_restartEngine (hold : Bool) : Frame restartParts s (s.restartEngine hold) :=
  .ite (frame_restart s) ((frame_restart s).trans ((frame_becomeRunning _).mono (allIn rfl)))

theorem frame_remap (pr : Profile) : Frame [.profile, .ports] s (s.remap pr) := .of rfl

theorem frame_setAttached (yes : Bool) : Frame [.profile, .cps, .ring] s (s.setAttached yes) := by
  exact .ite (.refl s) (Frame.trans (.of (by rfl)) ((frame_freeRead _).mono (allIn rfl)))

/-- What a write of the profile may write. -/
abbrev profileParts : List Part := [.profile, .ports, .table, .led, .cps, .ring]

theorem frame_writeField {f : FieldId} {v : Nat} {t : State} (h : s.writeField f v = some t) : Frame profileParts s t := by
  have other (g : State) (hg : Frame profileParts s g) (h : some g = some t) : Frame profileParts s t :=
    Option.some.inj h ▸ hg
  unfold State.writeField at h
  dsimp only at h
  split at h
  case h_1 i part =>
    obtain ⟨w, -, rfl⟩ := Option.map_eq_some_iff.mp h
    exact (frame_remap s _).mono (allIn rfl)
  case h_6 => exact other _ ((frame_setAttached s _).mono (allIn rfl)) h
  all_goals
    exact other _ (.of (by rfl)) h

set_option Elab.async false in
theorem frame_writeRun (vs : List (FieldId × Nat)) : Frame profileParts s (s.writeRun vs).1 := by
  induction vs generalizing s with
  | nil => exact .refl s
  | cons x rest ih =>
    obtain ⟨f, v⟩ := x
    unfold State.writeRun
    split
    · exact .refl s
    · next t h => exact (frame_writeField s h).trans (ih t)

theorem frame_endSave (r : SaveResult) : Frame [.store, .cps] s (s.endSave r) := by
  exact Frame.trans (.of (by rfl)) ((frame_raiseAttached _ _).mono (allIn rfl))

theorem frame_beginRecord (cp : CtlPort) (r : IncidentAnswer) : Frame [.cps] s (s.beginRecord cp r) := by
  unfold State.beginRecord
  split
  · split
    · exact .refl s
    · exact frame_respond s cp _ _
  · exact .refl s

theorem frame_consume (cp : CtlPort) : Frame [.cps, .ring] s (s.consume cp) := by
  unfold State.consume
  split
  · exact .ite (.refl s) (((frame_updCtl s cp _).mono (allIn rfl)).trans ((frame_freeRead _).mono (allIn rfl)))
  · exact .refl s

theorem frame_departed (q : TxProbe) : Frame [.probes, .counters] s (s.departed q) :=
  .ite (.refl s) (((frame_probes s _).mono (allIn rfl)).trans ((frame_census _ _ _ _).mono (allIn rfl)))

theorem frame_offer (t : TapId) (f : TapFrame) (p : Port) : Frame [.taps, .attempts, .counters, .cps] s (s.offer t f p) :=
  .ite ((frame_updTap s t _).mono (allIn rfl))
    (((frame_census s _ _ _).mono (allIn rfl)).trans ((frame_raiseAttached _ _).mono (allIn rfl)))

theorem frame_accept (t : TapId) (f : TapFrame) (order : MeterOrder) (p : Port) :
    Frame [.ports, .gateReqs, .meter, .cps, .taps, .attempts, .counters] s (s.accept t f order p) := by
  have counted := ((frame_census s .floodFrames (some p) 1).trans
    (frame_census _ .floodUnits (some p) (weight (f.length - 4)))).mono
    (W := [.ports, .gateReqs, .meter, .cps, .taps, .attempts, .counters]) (by simp)
  exact .ite (counted.trans (((frame_arrival _ order p _).mono (allIn rfl)).trans ((frame_offer _ t f p).mono (allIn rfl))))
    counted

end

/-! ### The commands -/

/-- The parts that a command may write; a control command writes its control port beside them. -/
def writes : Instr → List Part
  | .resetAssert | .resetRelease => [.time, .running, .profile, .store, .ports, .taps, .attempts, .analysing, .meter,
      .slots, .scheduler, .probes, .urgent, .table, .decay, .find, .gateReqs, .polls, .epoch, .ring, .counters, .led, .cps,
      .holdOwner]
  | .loadEnd _ => [.running, .profile, .store, .ports, .attempts, .urgent, .slots, .decay, .led, .cps, .ring]
  | .tapLinkUp _ => [.taps, .attempts]
  | .tapLinkDown _ => [.taps, .attempts, .probes, .ports, .cps]
  | .tapFrame _ _ _ => [.ports, .gateReqs, .meter, .cps, .taps, .attempts, .counters]
  | .analysisTake => [.taps, .attempts, .probes, .analysing, .table, .ports, .gateReqs, .urgent, .counters]
  | .msTick _ => [.time, .polls, .store, .led, .meter, .slots, .decay, .scheduler, .ports, .gateReqs, .table]
  | .tenthTick => [.time, .ports, .led]
  | .slotExpiry => [.ports, .slots, .attempts]
  | .classIntervalExpiry _ => [.time, .polls, .store, .led, .meter, .slots, .decay, .scheduler, .ports, .gateReqs]
  | .decayExpiry => [.decay, .ports, .gateReqs]
  | .probeRetireLife => [.probes, .ports, .gateReqs, .urgent, .attempts]
  | .queuedEntryLife => [.probes, .ports, .taps, .attempts]
  | .urgentRequest _ _ => [.urgent, .ports, .attempts]
  | .servingAttempt _ => [.ports, .taps, .attempts, .probes, .scheduler, .counters]
  | .probeSendStart _ => [.taps, .attempts]
  | .probeDeparture _ => [.taps, .attempts, .probes, .counters]
  | .linkUp _ => [.gateReqs, .ports, .urgent, .attempts]
  | .watchCrossing _ => [.gateReqs, .ports, .attempts]
  | .linkDown _ | .downwardCrossing _ | .riseThroughR _ | .echoScoreChange _ | .listenCompletion _ => [.gateReqs, .ports]
  | .causeTaken _ _ | .pinnedLoop _ => [.gateReqs, .ports, .ring, .cps]
  | .classNoCandidate => [.gateReqs, .ring, .cps]
  | .listenTimeout _ => [.ports, .ring, .cps]
  | .releaseTimerExpiry _ | .holdExpiry _ => [.ports, .urgent, .gateReqs, .attempts]
  | .goodStandingExpiry _ => [.ports]
  | .pollStart _ | .pollStop _ => [.polls]
  | .pollWriteEnd _ _ _ => [.ports, .gateReqs, .attempts, .counters, .polls]
  | .pollComplete _ => [.ports, .counters, .epoch, .polls]
  | .silenceExpiry _ => [.polls, .cps]
  | .ledRefresh | .ledLatch => [.led]
  | .deferredPortEmptied _ => [.cps, .scheduler]
  | .setModeHeld _ _ | .setModePinned _ _ | .setModeAuto _ _ _ | .release _ _ _ | .releaseAll _ _ => manualParts
  | .takeHold _ | .dropHold _ | .breakHold _ => [.cps, .holdOwner]
  | .incidentConsumed _ => [.cps, .ring]
  | .selectCounter _ _ _ _ => [.cps, .counters]
  | .writeProfile _ _ _ _ => profileParts
  | .saveProfile _ | .savePageDone | .savePageTimeout | .saveNack => [.store, .cps]
  | .find _ | .findComplete => [.find, .cps]
  | .restartEngine _ _ => restartParts
  | .releaseEngine _ => [.running, .ports, .urgent, .slots, .decay, .attempts, .cps]
  | .chipSelectFall _ | .chipSelectRise _ | .unknownCommand _ _ | .readIdent _ | .readStatus _ | .readPort _ _
  | .readPorts _ _ | .readIncidents _ _ | .lostCountLowered _ | .readEvents _ | .eventFlagsCleared _ | .writeMask _ _
  | .readCounter _ _ | .readProfile _ _ | .readFind _ => [.cps]

/-- The profile in force after a load, and whether a window conflicted (R178, R15). -/
def State.loaded (s : State) (acked : List Byte) : Profile × Bool :=
  if judgeImage acked = .loaded then s.profile.load acked else (s.profile, false)

/-- The loaded profile in force and the store READY, the attachment still to take effect (R178, log entry 19). -/
def State.stored (s : State) (acked : List Byte) : State :=
  { s.takeProfile (s.loaded acked).1 with
    store := { s.store with
      condition := .ready, loadResult := judgeImage acked, windowConflict := (s.loaded acked).2 } }

theorem endLoad_eq (s : State) (acked : List Byte) : s.endLoad acked =
    (((s.stored acked).raiseAttached .storeStatus).takeModes.setAttached (s.loaded acked).1.cp1Attached).becomeRunning :=
  rfl

section
variable {s u : State}

theorem frame_stored (s : State) (acked : List Byte) : Frame [.profile, .ports, .store, .led] s (s.stored acked) := by
  unfold State.stored State.takeProfile State.remap
  exact .of rfl

theorem frame_takeModes (s : State) : Frame [.ports] s s.takeModes := by
  unfold State.takeModes
  exact .of rfl

theorem frame_endLoad (s : State) (acked : List Byte) : Frame (writes (.loadEnd acked)) s (s.endLoad acked) := by
  rw [endLoad_eq]
  have stored := (frame_stored s acked).mono (W := writes (.loadEnd acked)) (allIn rfl)
  have raised := stored.trans ((frame_raiseAttached _ .storeStatus).mono (allIn rfl))
  have moded := raised.trans ((frame_takeModes _).mono (allIn rfl))
  have attached := moded.trans ((frame_setAttached _ (s.loaded acked).1.cp1Attached).mono (allIn rfl))
  exact attached.trans ((frame_becomeRunning _).mono (allIn rfl))

theorem frame_tapLinkDown (t : TapId) (h : exec (.tapLinkDown t) s = .next u) : Frame (writes (.tapLinkDown t)) s u := by
  refine frame_powered h (.ite ?_ (.refl s))
  refine (Frame.trans ((frame_updTap s t TapRec.lost).mono (allIn rfl)) ?_).trans ((frame_raiseAttached _ _).mono (allIn rfl))
  exact Frame.foldl (fun s (q : TxProbe) => (frame_retireUnsent s q.sequence).mono (allIn rfl)) _ _

theorem frame_tapFrame (t : TapId) (f : TapFrame) (order : MeterOrder) (h : exec (.tapFrame t f order) s = .next u) :
    Frame (writes (.tapFrame t f order)) s u := by
  refine frame_powered h (.ite ?_ (.refl s))
  split
  · exact (frame_census s _ _ _).mono (allIn rfl)
  · exact (frame_census s _ _ _).mono (allIn rfl)
  · exact (frame_updTap s t _).mono (allIn rfl)
  · exact (frame_updTap s t _).mono (allIn rfl)
  · exact frame_accept s t f order _

theorem frame_analysisTake (h : exec .analysisTake s = .next u) : Frame (writes .analysisTake) s u := by
  refine frame_powered h ?_
  split
  · exact (frame_takeFrame s).mono (allIn rfl)
  · exact Frame.trans (.of (by rfl)) ((frame_conclude _ _).mono (allIn rfl))

theorem frame_msTick (order : MeterOrder) (h : exec (.msTick order) s = .next u) : Frame (writes (.msTick order)) s u := by
  have begun : Frame (writes (.msTick order)) s (if s.tickBegun then { s with tickBegun := false } else s.beginTick) :=
    .ite ((frame_tickBegun s false).mono (allIn rfl)) ((frame_beginTick s).mono (allIn rfl))
  have swept (t : State) : Frame (writes (.msTick order)) t (t.drain order).sweepVisit :=
    ((frame_drain t order).mono (allIn rfl)).trans ((frame_sweepVisit _).mono (allIn rfl))
  exact frame_powered h (.ite (begun.trans (swept _)) begun)

theorem frame_classIntervalExpiry (order : ExpiryOrder) (h : exec (.classIntervalExpiry order) s = .next u) :
    Frame (writes (.classIntervalExpiry order)) s u := by
  refine frame_powered h ?_
  cases order with
  | drainFirst => exact (frame_classExpiry s).mono (allIn rfl)
  | expiryFirst =>
    exact .ite (Frame.trans (Frame.trans ((frame_beginTick s).mono (allIn rfl)) ((frame_tickBegun _ true).mono (allIn rfl)))
      ((frame_classExpiry _).mono (allIn rfl))) (.refl s)

theorem frame_probeRetireLife (h : exec .probeRetireLife s = .next u) : Frame (writes .probeRetireLife) s u := by
  refine frame_powered h ?_
  split
  · exact .refl s
  · exact .ite (Frame.trans (Frame.trans ((frame_probes s _).mono (allIn rfl)) ((frame_retireSent _ _).mono (allIn rfl)))
      ((frame_entryFreed _).mono (allIn rfl))) (.refl s)

theorem frame_queuedEntryLife (h : exec .queuedEntryLife s = .next u) : Frame (writes .queuedEntryLife) s u := by
  refine frame_powered h ?_
  split
  · exact .refl s
  · exact .ite (Frame.trans (.of (by rfl)) ((frame_unsent _ _).mono (allIn rfl))) (.refl s)

theorem frame_probeDeparture (t : TapId) (h : exec (.probeDeparture t) s = .next u) :
    Frame (writes (.probeDeparture t)) s u := by
  refine frame_powered h ?_
  split
  · exact .refl s
  · exact ((frame_updTap s t _).mono (allIn rfl)).trans (.ite (.refl _) ((frame_census _ _ _ _).mono (allIn rfl)))
  · split
    · exact (frame_updTap s t _).mono (allIn rfl)
    · exact ((frame_updTap s t _).mono (allIn rfl)).trans ((frame_departed _ _).mono (allIn rfl))

theorem frame_pollWriteEnd (l : TapId) (links : BitVec 32) (check : BitVec 4)
    (h : exec (.pollWriteEnd l links check) s = .next u) : Frame (writes (.pollWriteEnd l links check)) s u := by
  refine frame_powered h ?_
  split
  · exact Frame.trans (.ite (frame_note ((frame_placeLinks s l _).mono (allIn rfl)) (isIn rfl) s)
      ((frame_census s _ _ _).mono (allIn rfl))) ((frame_updPoll _ l _).mono (allIn rfl))
  · exact .refl s
  · exact .refl s

theorem frame_pollComplete (l : TapId) (h : exec (.pollComplete l) s = .next u) : Frame (writes (.pollComplete l)) s u := by
  refine frame_powered h ?_
  split
  · next samples _ =>
    have counted := ((frame_deliver s samples).mono (W := writes (.pollComplete l)) (allIn rfl)).trans
      (Frame.foldl (fun s (p : Port) => (frame_census s .gateClosings (some p) 1).mono (allIn rfl))
        (s.closings samples) _)
    exact (counted.trans (.of (by rfl))).trans ((frame_updPoll _ l _).mono (allIn rfl))
  · exact .refl s
  · exact .refl s

theorem frame_readIncidents (cp : CtlPort) (ev : IncidentsEvent) (h : exec (.readIncidents cp ev) s = .next u) :
    Frame (writes (.readIncidents cp ev)) s u := by
  cases ev with
  | command n => exact frame_command h (isIn rfl) (frame_answer s cp _ _ _)
  | begins =>
    refine frame_powered h ?_
    split
    · exact frame_respond s cp _ _
    · exact .refl s
  | recordBegins =>
    refine frame_powered h ?_
    split
    · exact frame_beginRecord s cp _
    · exact .refl s
  | shiftedOut bytes => exact frame_powered h (.ite (frame_updCtl s cp _) (.refl s))

theorem frame_find (ev : FindEvent) (h : exec (.find ev) s = .next u) : Frame (writes (.find ev)) s u := by
  have scan (x : FindState) : Frame [.find, .cps] s { s with find := x } := .of rfl
  cases ev with
  | command cp target =>
    refine frame_command h (isIn rfl) ?_
    split
    · exact frame_answered (scan _) (isIn rfl) _ _ _ _
    · exact .refl s
  | scanTo place =>
    refine frame_powered h ?_
    split
    · exact scan _
    · exact .refl s

theorem frame_findComplete (h : exec .findComplete s = .next u) : Frame (writes .findComplete) s u := by
  refine frame_powered h ?_
  split
  · exact Frame.trans (.of (by rfl)) ((frame_raiseOn _ _ _).mono (allIn rfl))
  · exact .refl s

theorem frame_writeProfile (cp : CtlPort) (start count : Byte) (values : List Byte)
    (h : exec (.writeProfile cp start count values) s = .next u) :
    Frame (writes (.writeProfile cp start count values)) s u := by
  change execWriteProfile cp start count values s = .next u at h
  unfold execWriteProfile at h
  split at h
  · exact Host.Outcome.next.inj h ▸ .refl s
  · refine frame_command h (isIn rfl) ?_
    split
    · exact .refl s
    · exact frame_answered (frame_writeRun s _) (isIn rfl) _ _ _ _

theorem frame_savePages (c : Instr) (hc : c = .savePageDone ∨ c = .savePageTimeout ∨ c = .saveNack)
    (h : exec c s = .next u) : Frame [.store, .cps] s u := by
  have job (x : StoreRec) : Frame [.store, .cps] s { s with store := x } := .of rfl
  rcases hc with rfl | rfl | rfl <;> refine frame_powered h ?_ <;> split
  · exact .refl s
  · exact .ite (job _) (frame_endSave s _)
  · exact .refl s
  · exact .ite (frame_endSave s _) (.refl s)
  · exact .refl s
  · exact frame_endSave s _

theorem frame_whenBegins {cp : CtlPort} {r : Reply} {begun : State} (h : whenBegins cp s r begun = .next u)
    (hb : Frame [.cps] s begun) : Frame [.cps] s u :=
  frame_powered h (.ite hb (.refl s))

end

/-- No command writes outside its parts. -/
theorem frame_slotExpiry {s u : State} (h : exec .slotExpiry s = .next u) : Frame (writes .slotExpiry) s u := by
  refine frame_powered h (.ite (frame_note (.of ?_) (isIn rfl) s) (.refl s))
  unfold State.accrue
  rfl

theorem exec_frame {c : Instr} {s u : State} (h : exec c s = .next u) : Frame (writes c) s u := by
  cases c with
  | resetAssert =>
    obtain rfl := Host.Outcome.next.inj h
    exact .of rfl
  | resetRelease =>
    obtain rfl := Host.Outcome.next.inj h
    exact .ite (.of (by rfl)) (.refl s)
  | loadEnd acked => exact frame_powered h (.ite (frame_endLoad s acked) (.refl s))
  | tapLinkUp t => exact frame_powered h (.ite (.refl s) (frame_note (frame_updTap s t _) (isIn rfl) s))
  | tapLinkDown t => exact frame_tapLinkDown t h
  | tapFrame t f order => exact frame_tapFrame t f order h
  | analysisTake => exact frame_analysisTake h
  | msTick order => exact frame_msTick order h
  | tenthTick =>
    exact frame_powered h (.ite (.of (by rfl)) (.refl s))
  | slotExpiry => exact frame_slotExpiry h
  | classIntervalExpiry order => exact frame_classIntervalExpiry order h
  | decayExpiry =>
    exact frame_powered h (.ite (.of (by rfl)) (.refl s))
  | probeRetireLife => exact frame_probeRetireLife h
  | queuedEntryLife => exact frame_queuedEntryLife h
  | urgentRequest p confirm =>
    exact frame_powered h (.ite (frame_note (.of (by rfl)) (isIn rfl) s) (.refl s))
  | servingAttempt t => exact frame_powered h (.ite (frame_attempt s _) (.refl s))
  | probeSendStart t => exact frame_powered h (.ite (frame_updTap s t _) (.refl s))
  | probeDeparture t => exact frame_probeDeparture t h
  | linkUp p => exact frame_powered h (frame_takeRequest s _ _ (isIn rfl) fun s _ => frame_takeLinkUp s p)
  | linkDown p => exact frame_powered h (frame_takeRequest s _ _ (isIn rfl) fun s _ => frame_takeLinkDown s p)
  | watchCrossing p => exact frame_powered h (frame_takeRequest s _ _ (isIn rfl) fun s _ => frame_takeWatch s p)
  | downwardCrossing p =>
    exact frame_powered h (frame_takeRequest s _ _ (isIn rfl) fun s _ => (frame_updPort s p _).mono (allIn rfl))
  | riseThroughR p =>
    exact frame_powered h (frame_takeRequest s _ _ (isIn rfl) fun s _ => (frame_updPort s p _).mono (allIn rfl))
  | echoScoreChange p =>
    exact frame_powered h (frame_takeRequest s _ _ (isIn rfl) fun s _ => (frame_updPort s p _).mono (allIn rfl))
  | causeTaken p c =>
    refine frame_powered h (frame_takeRequest s _ _ (isIn rfl) fun s k => ?_)
    split
    · exact (frame_applyCause s p _ _).mono (allIn rfl)
    · exact .refl s
  | pinnedLoop l =>
    refine frame_powered h (frame_takeRequest s _ _ (isIn rfl) fun s k => ?_)
    split
    · exact (frame_takePinnedLoop s _ _).mono (allIn rfl)
    · exact .refl s
  | classNoCandidate =>
    refine frame_powered h (frame_takeRequest s _ _ (isIn rfl) fun s k => ?_)
    split
    · exact .ite (.refl s) ((frame_record s _).mono (allIn rfl))
    · exact .refl s
  | listenCompletion p =>
    exact frame_powered h (frame_takeRequest s _ _ (isIn rfl) fun s _ =>
      .ite ((frame_updPort s p _).mono (allIn rfl)) (.refl s))
  | listenTimeout p =>
    refine frame_powered h (.ite ?_ (.refl s))
    exact (((frame_updPort s p _).mono (allIn rfl)).trans ((frame_updPort _ p _).mono (allIn rfl))).trans
      ((frame_record _ _).mono (allIn rfl))
  | releaseTimerExpiry p =>
    exact frame_powered h (.ite (frame_note ((frame_listen s p).mono (allIn rfl)) (isIn rfl) s) (.refl s))
  | goodStandingExpiry p => exact frame_powered h (.ite (frame_updPort s p _) (.refl s))
  | holdExpiry p =>
    exact frame_powered h (.ite (frame_note ((frame_listen s p).mono (allIn rfl)) (isIn rfl) s) (.refl s))
  | pollStart l => exact frame_powered h (frame_updPoll s l _)
  | pollWriteEnd l links check => exact frame_pollWriteEnd l links check h
  | pollComplete l => exact frame_pollComplete l h
  | pollStop l => exact frame_powered h (frame_updPoll s l _)
  | silenceExpiry l =>
    exact frame_powered h (.ite (((frame_updPoll s l _).mono (allIn rfl)).trans
      ((frame_raiseAttached _ _).mono (allIn rfl))) (.refl s))
  | ledRefresh =>
    exact frame_powered h (.ite (.of (by rfl)) (.refl s))
  | ledLatch =>
    refine frame_powered h ?_
    split
    · exact .refl s
    · exact .of rfl
  | chipSelectFall cp => exact frame_powered h (.ite (frame_updCtl s cp _) (.refl s))
  | chipSelectRise ev =>
    refine frame_powered h ?_
    split
    · exact .refl s
    · exact frame_updCtl s ev.cp _
    · exact frame_updCtl s ev.cp _
  | unknownCommand cp byte => exact frame_command h (isIn rfl) (.refl s)
  | readIdent ev =>
    cases ev with
    | command cp => exact frame_command (checks := []) h (isIn rfl) (frame_answer s cp _ _ _)
    | begins cp => exact frame_whenBegins h (frame_respond s cp _ _)
  | readStatus ev =>
    cases ev with
    | command cp => exact frame_command (checks := []) h (isIn rfl) (frame_answer s cp _ _ _)
    | begins cp => exact frame_whenBegins h (frame_respond s cp _ _)
  | deferredPortEmptied cp =>
    refine frame_powered h ?_
    split
    · exact .of rfl
    · exact .refl s
  | readPort cp ev =>
    cases ev with
    | command port =>
      refine frame_command h (isIn rfl) ?_
      split
      · exact frame_answer s cp _ _ _
      · exact .refl s
    | viewBegins =>
      refine frame_powered h ?_
      split
      · exact frame_respond s cp _ _
      · exact .refl s
  | readPorts cp ev =>
    cases ev with
    | command port =>
      refine frame_command h (isIn rfl) ?_
      split
      · exact frame_answer s cp _ _ _
      · exact .refl s
    | viewBegins =>
      refine frame_powered h ?_
      split
      · exact frame_respond s cp _ _
      · exact .refl s
  | setModeHeld cp port =>
    refine frame_command h (isIn rfl) ?_
    split
    · exact frame_answered (frame_manualHeld s _) (isIn rfl) _ _ _ _
    · exact .refl s
  | setModePinned cp port =>
    refine frame_command h (isIn rfl) ?_
    split
    · exact frame_answered (frame_manualPinned s _) (isIn rfl) _ _ _ _
    · exact .refl s
  | setModeAuto cp port mode =>
    change execSetModeAuto cp port mode s = .next u at h
    unfold execSetModeAuto at h
    split at h
    · exact Host.Outcome.next.inj h ▸ .refl s
    · refine frame_command h (isIn rfl) ?_
      split
      · exact frame_answered (frame_note (frame_manualAuto s _) (isIn rfl) s) (isIn rfl) _ _ _ _
      · exact .refl s
  | release cp port forgive =>
    refine frame_command h (isIn rfl) ?_
    split
    · exact frame_answered (frame_note (frame_manualRelease s _ _ _) (isIn rfl) s) (isIn rfl) _ _ _ _
    · exact .refl s
  | releaseAll cp forgive =>
    refine frame_command h (isIn rfl) ?_
    split
    · exact frame_answered (frame_note (frame_manualReleaseAll s _) (isIn rfl) s) (isIn rfl) _ _ _ _
    · exact .refl s
  | takeHold cp =>
    exact frame_command h (isIn rfl) (frame_answered (.of (by rfl)) (isIn rfl) _ _ _ _)
  | dropHold cp =>
    exact frame_command (checks := []) h (isIn rfl) (frame_answered (.of (by rfl)) (isIn rfl) _ _ _ _)
  | breakHold cp =>
    refine frame_command h (isIn rfl) (frame_answered ?_ (isIn rfl) _ _ _ _)
    exact Frame.trans (.ite (c := s.holdOwner = some .cp1) ((frame_raiseOn s .cp1 .holdBroken).mono (allIn rfl)) (.refl s)) (.of (by rfl))
  | readIncidents cp ev => exact frame_readIncidents cp ev h
  | lostCountLowered cp =>
    refine frame_powered h ?_
    split
    · exact .ite (.refl s) ((frame_updCtl s cp _).trans (frame_respond _ cp _ _))
    · exact .refl s
  | incidentConsumed cp =>
    refine frame_powered h ?_
    split
    · exact ((frame_beginRecord s cp _).mono (allIn rfl)).trans (frame_consume _ cp)
    · exact .refl s
  | readEvents ev =>
    cases ev with
    | command cp => exact frame_command (checks := []) h (isIn rfl) (frame_answer s cp _ _ _)
    | begins cp => exact frame_whenBegins h ((frame_updCtl s cp _).trans (frame_respond _ cp _ _))
  | eventFlagsCleared cp =>
    refine frame_powered h ?_
    split
    · exact frame_updCtl s cp _
    · exact .refl s
  | writeMask cp mask =>
    exact frame_command (checks := []) h (isIn rfl) (frame_answered (frame_updCtl s cp _) (isIn rfl) _ _ _ _)
  | selectCounter cp counter kind filter =>
    refine frame_command h (isIn rfl) ?_
    split
    · exact frame_answered (.of (by rfl)) (isIn rfl) _ _ _ _
    · exact .refl s
  | readCounter cp ev =>
    cases ev with
    | command counter =>
      refine frame_command h (isIn rfl) ?_
      split
      · exact frame_answer s cp _ _ _
      · exact .refl s
    | begins =>
      refine frame_powered h ?_
      split
      · exact frame_respond s cp _ _
      · exact .refl s
  | readProfile cp ev =>
    cases ev with
    | command start => exact frame_command h (isIn rfl) (frame_answer s cp _ _ _)
    | fieldBegins =>
      refine frame_powered h ?_
      split
      · exact frame_respond s cp _ _
      · exact .refl s
  | writeProfile cp start count values => exact frame_writeProfile cp start count values h
  | saveProfile cp =>
    exact frame_command h (isIn rfl) (frame_answered (.of (by rfl)) (isIn rfl) _ _ _ _)
  | savePageDone => exact frame_savePages _ (by simp) h
  | savePageTimeout => exact frame_savePages _ (by simp) h
  | saveNack => exact frame_savePages _ (by simp) h
  | find ev => exact frame_find ev h
  | findComplete => exact frame_findComplete h
  | readFind ev =>
    cases ev with
    | command cp => exact frame_command (checks := []) h (isIn rfl) (frame_await s cp _)
    | begins cp => exact frame_whenBegins h (frame_answer s cp _ _ _)
  | restartEngine cp hold =>
    refine frame_command h (isIn rfl) ?_
    split
    · exact frame_answered (frame_restartEngine s _) (isIn rfl) _ _ _ _
    · exact .refl s
  | releaseEngine cp =>
    refine frame_command h (isIn rfl) (frame_answered (.ite (.refl s) ?_) (isIn rfl) _ _ _ _)
    exact (frame_becomeRunning s).mono (allIn rfl)

/-! ### Every command answers -/

/-- No command faults and none is refused: every meaning is an answer of a powered part. -/
theorem exec_isNext (c : Instr) (s : State) : ∃ t, exec c s = .next t := by
  cases c with
  | readIdent ev => cases ev <;> exact ⟨_, rfl⟩
  | readStatus ev => cases ev <;> exact ⟨_, rfl⟩
  | readPort cp ev => cases ev <;> exact ⟨_, rfl⟩
  | readPorts cp ev => cases ev <;> exact ⟨_, rfl⟩
  | readIncidents cp ev => cases ev <;> exact ⟨_, rfl⟩
  | readEvents ev => cases ev <;> exact ⟨_, rfl⟩
  | readCounter cp ev => cases ev <;> exact ⟨_, rfl⟩
  | readProfile cp ev => cases ev <;> exact ⟨_, rfl⟩
  | find ev => cases ev <;> exact ⟨_, rfl⟩
  | readFind ev => cases ev <;> exact ⟨_, rfl⟩
  | setModeAuto cp port mode =>
    change ∃ t, execSetModeAuto cp port mode s = .next t
    unfold execSetModeAuto
    split <;> exact ⟨_, rfl⟩
  | writeProfile cp start count values =>
    change ∃ t, execWriteProfile cp start count values s = .next t
    unfold execWriteProfile
    split <;> exact ⟨_, rfl⟩
  | _ => exact ⟨_, rfl⟩

set_option Elab.async false in
/-- No command writes the queue or the unit number. -/
theorem host_not_mem_writes (c : Instr) : Part.host ∉ writes c := by cases c <;> exact notIn rfl

/-- Settles O2: every meaning answers, and none writes the queue or the unit number. -/
theorem everyCommandAnswersAndLeavesTheQueue : Obligations.EveryCommandAnswersAndLeavesTheQueue := by
  refine ⟨fun c s => ?_, fun cp port s => ⟨rfl, rfl⟩⟩
  obtain ⟨t, h⟩ := exec_isNext c s
  obtain ⟨hPending, hUnit⟩ := exec_frame h .host (host_not_mem_writes c)
  exact ⟨t, h, hPending, hUnit⟩

end Sys2Proof.Machine
end

section
/-! PROOF. Every value of the profile stays in its range and no two enabled windows share a guard port: what one field
written, a window written and a loaded image make of the profile (R10, R14, R15, R38, R39, R55, R127, R171, R189). -/

namespace Sys2Proof.Machine

open Sys2Proof.Spec

/-! ### Vectors read at a place of their own index type -/

theorem getElem_set_fin {α : Type} {n : Nat} (v : Vector α n) (i j : Fin n) (x : α) :
    (v.set i x)[j] = if j = i then x else v[j] := by
  simp only [Fin.getElem_fin, Vector.getElem_set, Fin.ext_iff, eq_comm]

@[simp] theorem getElem_ofFn_fin {α : Type} {n : Nat} (f : Fin n → α) (i : Fin n) : (Vector.ofFn f)[i] = f i :=
  Vector.getElem_ofFn i.isLt

theorem vector_ext_fin {α : Type} {n : Nat} {v w : Vector α n} (h : ∀ i : Fin n, v[i] = w[i]) : v = w :=
  Vector.ext fun i hi => h ⟨i, hi⟩

theorem forall_set {α : Type} {P : α → Prop} {n : Nat} {v : Vector α n} (h : ∀ j : Fin n, P v[j]) {i : Fin n} {x : α} (hx : P x)
    (j : Fin n) : P (v.set i x)[j] := by
  rw [getElem_set_fin]
  split
  · exact hx
  · exact h j

/-! ### The profile in order, by its parts -/

/-- The values of a meter profile in their own ranges, before the clamps between them (R37). -/
abbrev MeterProfile.ranged (m : MeterProfile) : Prop := m.d ≤ 4095 ∧ m.w ≤ 65535 ∧ m.c ≤ 65535 ∧ m.s ≤ 65535 ∧ m.r ≤ 65535

/-- The values of a profile in their own ranges, before the clamps between them; of the windows nothing is said. -/
structure Profile.Ranged (pr : Profile) : Prop where
  meters : ∀ i : Fin 4, pr.meters[i].ranged
  group : pr.groupAddress ||| groupBit = pr.groupAddress
  dc : pr.dc ≤ 65535
  wc : pr.wc ≤ 1048575
  cc : pr.cc ≤ 1048575
  ti : 10 ≤ pr.ti ∧ pr.ti ≤ 10000
  ts : 4 ≤ pr.ts ∧ pr.ts ≤ 255
  lp : 10 ≤ pr.lp ∧ pr.lp ≤ 1000
  listenLimit : 100 ≤ pr.listenLimit ∧ pr.listenLimit ≤ 10000
  tr : 100 ≤ pr.tr ∧ pr.tr ≤ 60000
  tg : 10 ≤ pr.tg ∧ pr.tg ≤ 3600
  hb : 1 ≤ pr.hb ∧ pr.hb ≤ 600
  hmax : 1 ≤ pr.hmax ∧ pr.hmax ≤ 36000
  we : 4 ≤ pr.we ∧ pr.we ≤ 255
  nr : 2 ≤ pr.nr ∧ pr.nr ≤ 15
  ne : 1 ≤ pr.ne ∧ pr.ne ≤ 15
  td : 100 ≤ pr.td ∧ pr.td ≤ 10000
  holdOff : 1 ≤ pr.holdOff ∧ pr.holdOff ≤ 600
  tsil : 10 ≤ pr.tsil ∧ pr.tsil ≤ 2000
  leds : ∀ i : Fin 4, pr.leds[i].on ≤ 15 ∧ pr.leds[i].off ≤ 15

/-- The windows of a profile in their ranges, no two enabled ones sharing a guard port (R10, R14). -/
abbrev Profile.windowsOk (pr : Profile) : Prop :=
  (∀ i : Fin 4, pr.windows[i].inRange) ∧ ∀ i j : Fin 4, i ≠ j → pr.windows[i].overlaps pr.windows[j] = false

theorem MeterProfile.inRange.ranged {m : MeterProfile} (h : m.inRange) : m.ranged := by
  obtain ⟨hd, hrw, hwc, hcs, hs⟩ := h
  have hc := hcs.trans hs
  have hw := hwc.trans hc
  exact ⟨hd, hw, hc, hs, hrw.trans hw⟩

theorem Profile.ok_iff (pr : Profile) : pr.ok ↔ pr.windowsOk ∧ (∀ i : Fin 4, pr.meters[i].inRange) ∧ pr.Ranged
    ∧ pr.wc ≤ pr.cc ∧ pr.hb ≤ pr.hmax := by
  constructor
  · rintro ⟨hw, ho, hm, hg, hdc, hwc, hcc, hti, hts, hlp, hll, htr, htg, hhb, hmax, hwe, hnr, hne, htd, hho, htsil, hl⟩
    exact ⟨⟨hw, ho⟩, hm, ⟨fun i => (hm i).ranged, hg, hdc, hwc.trans hcc, hcc, hti, hts, hlp, hll, htr, htg, hhb,
      ⟨hhb.1.trans hmax.1, hmax.2⟩, hwe, hnr, hne, htd, hho, htsil, hl⟩, hwc, hmax.1⟩
  · rintro ⟨⟨hw, ho⟩, hm, ⟨-, hg, hdc, -, hcc, hti, hts, hlp, hll, htr, htg, hhb, hmax, hwe, hnr, hne, htd, hho, htsil, hl⟩,
      hwc, hle⟩
    exact ⟨hw, ho, hm, hg, hdc, hwc, hcc, hti, hts, hlp, hll, htr, htg, hhb, ⟨hle, hmax.2⟩, hwe, hnr, hne, htd, hho, htsil, hl⟩

/-! ### Values brought into their ranges -/

theorem MeterProfile.clamped_inRange {m : MeterProfile} (h : m.ranged) : m.clamped.inRange := by
  obtain ⟨hd, hw, hc, hs, -⟩ := h
  exact ⟨hd, Nat.min_le_right _ _, Nat.le_max_right _ _, Nat.le_max_right _ _,
    Nat.max_le.mpr ⟨hs, Nat.max_le.mpr ⟨hc, hw⟩⟩⟩

theorem MeterProfile.withPart_ranged {m : MeterProfile} (h : m.ranged) (part : MeterPart) (v : Nat) :
    (m.withPart part v).ranged := by
  have below (hi : Nat) : clamp 0 hi v ≤ hi := (clamp_mem hi.zero_le v).2
  obtain ⟨hd, hw, hc, hs, hr⟩ := h
  cases part with
  | d => exact ⟨below _, hw, hc, hs, hr⟩
  | w => exact ⟨hd, below _, hc, hs, hr⟩
  | c => exact ⟨hd, hw, below _, hs, hr⟩
  | s => exact ⟨hd, hw, hc, below _, hr⟩
  | r => exact ⟨hd, hw, hc, hs, below _⟩

theorem Window.clamped_inRange (w : Window) : w.clamped.inRange := by
  have first : w.clamped.first ≤ 31 := Nat.min_le_right _ _
  have guard : w.clamped.guard ≤ 47 := Nat.min_le_right _ _
  have room : w.clamped.count ≤ min (32 - w.clamped.first) (48 - w.clamped.guard) := Nat.min_le_right _ _
  have fabric := room.trans (Nat.min_le_left _ _)
  have guards := room.trans (Nat.min_le_right _ _)
  exact ⟨first, guard, by omega, by omega⟩

theorem Window.overlaps_comm (x y : Window) : x.overlaps y = y.overlaps x := by
  simp only [Window.overlaps, decide_eq_decide]
  omega

theorem Window.overlaps_disabled {x y : Window} (h : x.count = 0) : x.overlaps y = false := by simp [Window.overlaps, h]

set_option Elab.async false in
theorem or_groupBit_idem (x : BitVec 48) : (x ||| groupBit) ||| groupBit = x ||| groupBit := by
  rw [BitVec.or_assoc, BitVec.or_self]

/-- A value written is brought into its own range (R171). -/
theorem Profile.putRaw_ranged {pr : Profile} (h : pr.Ranged) (f : FieldId) (v : Nat) : (pr.putRaw f v).Ranged := by
  have range {lo hi : Nat} (h : lo ≤ hi) : lo ≤ clamp lo hi v ∧ clamp lo hi v ≤ hi := clamp_mem h v
  have below (hi : Nat) : clamp 0 hi v ≤ hi := (clamp_mem hi.zero_le v).2
  cases f with
  | meter i part => exact { h with meters := forall_set h.meters (MeterProfile.withPart_ranged (h.meters i) part v) }
  | groupAddress => exact { h with group := or_groupBit_idem _ }
  | dc => exact { h with dc := below _ }
  | wc => exact { h with wc := below _ }
  | cc => exact { h with cc := below _ }
  | ti => exact { h with ti := range (by decide) }
  | ts => exact { h with ts := range (by decide) }
  | lp => exact { h with lp := range (by decide) }
  | listenLimit => exact { h with listenLimit := range (by decide) }
  | tr => exact { h with tr := range (by decide) }
  | tg => exact { h with tg := range (by decide) }
  | hb => exact { h with hb := range (by decide) }
  | hmax => exact { h with hmax := range (by decide) }
  | we => exact { h with we := range (by decide) }
  | nr => exact { h with nr := range (by decide) }
  | ne => exact { h with ne := range (by decide) }
  | td => exact { h with td := range (by decide) }
  | holdOff => exact { h with holdOff := range (by decide) }
  | tsil => exact { h with tsil := range (by decide) }
  | ledOn i => exact { h with leds := forall_set (P := fun x : LedPattern => x.on ≤ 15 ∧ x.off ≤ 15) h.leds ⟨below 15, (h.leds i).2⟩ }
  | ledOff i => exact { h with leds := forall_set (P := fun x : LedPattern => x.on ≤ 15 ∧ x.off ≤ 15) h.leds ⟨(h.leds i).1, below 15⟩ }
  | _ => exact { h with }

/-! ### One field written -/

theorem Profile.settle_ranged {pr : Profile} (h : pr.Ranged) (f : FieldId) : (pr.settle f).Ranged := by
  have hcc : max pr.cc pr.wc ≤ 1048575 := Nat.max_le.mpr ⟨h.cc, h.wc⟩
  have hmax : 1 ≤ max pr.hmax pr.hb ∧ max pr.hmax pr.hb ≤ 36000 :=
    ⟨h.hmax.1.trans (Nat.le_max_left _ _), Nat.max_le.mpr ⟨h.hmax.2, h.hb.2.trans (by decide)⟩⟩
  cases f with
  | meter i part => exact { h with meters := forall_set h.meters (MeterProfile.clamped_inRange (h.meters i)).ranged }
  | dc | wc | cc | ti => exact { h with cc := hcc }
  | hb | hmax => exact { h with hmax := hmax }
  | _ => exact h

/-- A field that is no window leaves the windows (R171). -/
theorem Profile.write_windows (pr : Profile) {f : FieldId} (h : f.isWindow = false) (v : Nat) :
    (pr.write f v).windows = pr.windows := by
  cases f with
  | window i part => cases h
  | _ => rfl

/-- A meter field settles its meter profile and leaves the others (R38). -/
theorem Profile.write_meters {pr : Profile} (hr : pr.Ranged) (h : ∀ i : Fin 4, pr.meters[i].inRange) (f : FieldId) (v : Nat)
    (i : Fin 4) : (pr.write f v).meters[i].inRange := by
  cases f with
  | meter k part =>
    simp only [Profile.write, Profile.settle, Profile.putRaw, getElem_set_fin, if_true]
    split
    · exact MeterProfile.clamped_inRange (MeterProfile.withPart_ranged (hr.meters k) part v)
    · exact h i
  | _ => exact h i

/-- The values of a pair that has a clamp between them are settled by the write of either (R55, R127). -/
theorem Profile.write_pairs {pr : Profile} (hc : pr.wc ≤ pr.cc) (hh : pr.hb ≤ pr.hmax) (f : FieldId) (v : Nat) :
    (pr.write f v).wc ≤ (pr.write f v).cc ∧ (pr.write f v).hb ≤ (pr.write f v).hmax := by
  cases f with
  | dc | wc | cc | ti => exact ⟨le_max_right _ _, hh⟩
  | hb | hmax => exact ⟨hc, le_max_right _ _⟩
  | _ => exact ⟨hc, hh⟩

/-- A field that is no window is written into a profile in order (R171). -/
theorem Profile.write_ok {pr : Profile} (h : pr.ok) {f : FieldId} (hf : f.isWindow = false) (v : Nat) : (pr.write f v).ok := by
  obtain ⟨hw, hm, hr, hc, hh⟩ := pr.ok_iff.mp h
  refine (Profile.ok_iff _).mpr ⟨?_, Profile.write_meters hr hm f v, Profile.settle_ranged (Profile.putRaw_ranged hr f v) f,
    Profile.write_pairs hc hh f v⟩
  rw [Profile.windowsOk, Profile.write_windows pr hf v]
  exact hw

/-- What a window write that is not refused gives: the clamped window, which no other enabled one overlaps (R10, R14). -/
theorem Profile.windowWritten_some {pr : Profile} {i : Fin 4} {part : WindowPart} {v : Nat} {w : Window} :
    pr.windowWritten i part v = some w ↔ w = (pr.windows[i].withPart part v).clamped
      ∧ ∀ j, j ≠ i → w.overlaps pr.windows[j] = false := by
  simp only [Profile.windowWritten]
  split
  case isTrue h =>
    obtain ⟨j, -, hj⟩ := List.any_eq_true.mp h
    simp only [Bool.and_eq_true, decide_eq_true_eq] at hj
    simp only [reduceCtorEq, false_iff, not_and]
    rintro rfl hall
    rw [hall j hj.1] at hj
    exact absurd hj.2 Bool.false_ne_true
  case isFalse h =>
    simp only [List.any_eq_true, List.mem_finRange, true_and, Bool.and_eq_true, decide_eq_true_eq, not_exists, not_and,
      Bool.not_eq_true] at h
    constructor
    · intro hw
      obtain rfl := Option.some.inj hw
      exact ⟨rfl, h⟩
    · rintro ⟨rfl, -⟩
      rfl

/-- A clamped window that no other enabled one overlaps is taken into a profile in order (R14). -/
theorem Profile.setWindow_ok {pr : Profile} (h : pr.ok) {i : Fin 4} {w : Window} (hw : w.inRange)
    (ho : ∀ j, j ≠ i → w.overlaps pr.windows[j] = false) : Profile.ok { pr with windows := pr.windows.set i w } := by
  obtain ⟨⟨hin, hdis⟩, hm, hr, hc, hh⟩ := pr.ok_iff.mp h
  refine (Profile.ok_iff _).mpr ⟨⟨fun j => ?_, fun j k hjk => ?_⟩, hm, { hr with }, hc, hh⟩
  · exact forall_set (P := Window.inRange) hin hw j
  · rw [getElem_set_fin, getElem_set_fin]
    by_cases hj : j = i
    · rw [if_pos hj, if_neg fun hk => hjk (hj.trans hk.symm)]
      exact ho k fun hk => hjk (hj.trans hk.symm)
    · rw [if_neg hj]
      split
      · rw [Window.overlaps_comm]
        exact ho j hj
      · exact hdis j k hjk

/-- The attachment is no clamped value. -/
theorem Profile.setAttached_ok {pr : Profile} (h : pr.ok) (yes : Bool) : Profile.ok { pr with cp1Attached := yes } := h

theorem State.setAttached_profile (s : State) (yes : Bool) :
    (s.setAttached yes).profile = { s.profile with cp1Attached := yes } := by
  unfold State.setAttached
  split
  case isTrue h => rw [← h]
  case isFalse h => rfl

set_option Elab.async false in
/-- The profile after the write of one field that is no window (R171). -/
theorem State.writeField_profile {s t : State} {f : FieldId} {v : Nat} (hf : f.isWindow = false)
    (h : s.writeField f v = some t) : t.profile = s.profile.write f v := by
  cases f with
  | window i part => cases hf
  | cp1Attached => rw [← Option.some.inj h, State.setAttached_profile]; rfl
  | _ => exact congrArg State.profile (Option.some.inj h).symm

/-- The state after a window write that is not refused (R13, R16). -/
theorem State.writeField_window (s : State) (i : Fin 4) (part : WindowPart) (v : Nat) :
    s.writeField (.window i part) v = (s.profile.windowWritten i part v).map fun w =>
      s.remap { s.profile with windows := s.profile.windows.set i w } := rfl

theorem State.writeField_ok {s t : State} {f : FieldId} {v : Nat} (hs : s.profile.ok) (h : s.writeField f v = some t) :
    t.profile.ok := by
  cases hf : f.isWindow with
  | false => exact State.writeField_profile hf h ▸ Profile.write_ok hs hf v
  | true =>
    cases f with
    | window i part =>
      rw [State.writeField_window] at h
      obtain ⟨w, hw, rfl⟩ := Option.map_eq_some_iff.mp h
      obtain ⟨rfl, ho⟩ := Profile.windowWritten_some.mp hw
      exact Profile.setWindow_ok hs (Window.clamped_inRange _) ho
    | _ => cases hf

theorem State.writeRun_ok {s : State} (hs : s.profile.ok) (vs : List (FieldId × Nat)) : (s.writeRun vs).1.profile.ok := by
  induction vs generalizing s with
  | nil => exact hs
  | cons x rest ih =>
    obtain ⟨f, v⟩ := x
    unfold State.writeRun
    split
    · exact hs
    · next t h => exact ih (State.writeField_ok hs h)

/-! ### The windows of an image -/

/-- The window that a load takes after those taken before it: disabled where it shares a guard port with one (R15). -/
def Window.taken (w : Window) (before : List Window) : Window :=
  if before.any w.clamped.overlaps then { w.clamped with count := 0 } else w.clamped

theorem takeWindows_nil (taken : List Window) : takeWindows taken [] = (taken, false) := rfl

theorem takeWindows_cons (taken : List Window) (w : Window) (ws : List Window) : takeWindows taken (w :: ws) =
    ((takeWindows (taken ++ [w.taken taken]) ws).1,
      taken.any w.clamped.overlaps || (takeWindows (taken ++ [w.taken taken]) ws).2) := by
  simp only [takeWindows, Window.taken]
  cases h : taken.any w.clamped.overlaps <;> simp

theorem Window.taken_inRange (w : Window) (before : List Window) : (w.taken before).inRange := by
  have h := w.clamped_inRange
  simp only [Window.inRange] at h
  unfold Window.taken
  split
  · simp only [Window.inRange]; omega
  · exact h

/-- A window taken shares no guard port with one taken before it (R15). -/
theorem Window.taken_overlaps (w : Window) (before : List Window) : ∀ x ∈ before, (w.taken before).overlaps x = false := by
  intro x hx
  unfold Window.taken
  split
  · exact Window.overlaps_disabled rfl
  case isFalse h =>
    by_contra hx'
    exact h (List.any_eq_true.mpr ⟨x, hx, by simpa using hx'⟩)

/-- The windows of a load keep those taken before, and each of its own stands at its place, taken after those before it. -/
theorem takeWindows_get (taken ws : List Window) :
    (takeWindows taken ws).1.length = taken.length + ws.length ∧ (takeWindows taken ws).1.take taken.length = taken
      ∧ ∀ k (hk : k < ws.length),
          (takeWindows taken ws).1[taken.length + k]? = some (ws[k].taken ((takeWindows taken ws).1.take (taken.length + k))) := by
  induction ws generalizing taken with
  | nil => simp [takeWindows_nil]
  | cons w ws ih =>
    obtain ⟨hlen, htake, hget⟩ := ih (taken ++ [w.taken taken])
    rw [takeWindows_cons]
    simp only [List.length_append, List.length_singleton] at hlen htake hget
    have hold : (takeWindows (taken ++ [w.taken taken]) ws).1.take taken.length = taken := by
      have := congrArg (List.take taken.length) htake
      rwa [List.take_take, Nat.min_eq_left (Nat.le_succ _), List.take_left] at this
    refine ⟨by simp only [hlen, List.length_cons]; omega, hold, fun k hk => ?_⟩
    cases k with
    | zero =>
      have hlast : (takeWindows (taken ++ [w.taken taken]) ws).1[taken.length]? = some (w.taken taken) := by
        have := congrArg (·[taken.length]?) htake
        simpa [List.getElem?_take] using this
      simpa [hold] using hlast
    | succ k =>
      have := hget k (by simpa using hk)
      simpa [Nat.add_assoc, Nat.add_comm 1 k] using this

/-- A window conflicts exactly where one of the load shares a guard port with one taken before it (R15). -/
theorem takeWindows_conflict (taken ws : List Window) : (takeWindows taken ws).2 = true ↔
    ∃ k, ∃ hk : k < ws.length, ((takeWindows taken ws).1.take (taken.length + k)).any (ws[k].clamped.overlaps ·) = true := by
  induction ws generalizing taken with
  | nil => simp [takeWindows_nil]
  | cons w ws ih =>
    have hold := (takeWindows_get taken (w :: ws)).2.1
    rw [takeWindows_cons] at hold ⊢
    simp only [Bool.or_eq_true, ih, List.length_append, List.length_singleton]
    constructor
    · rintro (h | ⟨k, hk, h⟩)
      · exact ⟨0, by simp, by simpa [hold] using h⟩
      · exact ⟨k + 1, by simpa using hk, by simpa [Nat.add_assoc, Nat.add_comm 1 k] using h⟩
    · rintro ⟨k, hk, h⟩
      cases k with
      | zero => exact .inl (by simpa [hold] using h)
      | succ k => exact .inr ⟨k, by simpa using hk, by simpa [Nat.add_assoc, Nat.add_comm 1 k] using h⟩

/-! ### A loaded image -/

/-- The values of an image put into the profile one after another, before the clamps between them (R178). -/
def Profile.loadedRaw (pr : Profile) (acked : List Byte) : Profile :=
  ((splitValues fieldOrder (acked.drop 4)).getD []).foldl (fun p fv => p.putRaw fv.1 fv.2) pr

/-- The windows of an image, taken in order (R15). -/
def Profile.loadedWindows (pr : Profile) (acked : List Byte) : List Window × Bool :=
  takeWindows [] (pr.loadedRaw acked).windows.toList

theorem Profile.load_eq (pr : Profile) (acked : List Byte) : pr.load acked =
    ({ pr.loadedRaw acked with
        windows := Vector.ofFn fun i => (pr.loadedWindows acked).1.getD i.val ⟨0, 0, 0⟩
        meters := Vector.ofFn fun i => (pr.loadedRaw acked).meters[i].clamped
        cc := max (pr.loadedRaw acked).cc (pr.loadedRaw acked).wc
        hmax := max (pr.loadedRaw acked).hmax (pr.loadedRaw acked).hb }, (pr.loadedWindows acked).2) := rfl

set_option Elab.async false in
theorem Profile.loadedRaw_ranged {pr : Profile} (h : pr.Ranged) (acked : List Byte) : (pr.loadedRaw acked).Ranged := by
  unfold Profile.loadedRaw
  induction (splitValues fieldOrder (acked.drop 4)).getD [] generalizing pr with
  | nil => exact h
  | cons x xs ih => exact ih (Profile.putRaw_ranged h x.1 x.2)

/-- Each window after a load: the one of the image, taken after those before it (R15). -/
theorem Profile.load_window (pr : Profile) (acked : List Byte) (i : Fin 4) :
    (pr.load acked).1.windows[i] = (pr.loadedRaw acked).windows[i].taken ((pr.load acked).1.windows.toList.take i.val) := by
  have hget := takeWindows_get [] (pr.loadedRaw acked).windows.toList
  have hlen : (pr.loadedWindows acked).1.length = 4 := by simpa [Profile.loadedWindows] using hget.1
  have hlist : (pr.load acked).1.windows.toList = (pr.loadedWindows acked).1 := by
    rw [Profile.load_eq]
    refine List.ext_getElem (by simp [hlen]) fun k hk hk' => ?_
    simp [List.getD_eq_getElem?_getD, List.getElem?_eq_getElem hk']
  have hi := hget.2.2 i.val (by simp)
  rw [hlist]
  simp only [List.length_nil, Nat.zero_add, Vector.getElem_toList] at hi
  simp only [Profile.load_eq, getElem_ofFn_fin, List.getD_eq_getElem?_getD, Profile.loadedWindows, hi]
  rfl

theorem Profile.load_windowsOk (pr : Profile) (acked : List Byte) : (pr.load acked).1.windowsOk := by
  have earlier {i j : Fin 4} (h : j < i) : (pr.load acked).1.windows[i].overlaps (pr.load acked).1.windows[j] = false := by
    rw [Profile.load_window pr acked i]
    refine Window.taken_overlaps _ _ _ (List.mem_take_iff_getElem.mpr ⟨j.val, ?_, ?_⟩)
    · simpa using h
    · simp
  refine ⟨fun i => ?_, fun i j hij => ?_⟩
  · rw [Profile.load_window]
    exact Window.taken_inRange _ _
  · rcases lt_or_gt_of_ne hij with h | h
    · rw [Window.overlaps_comm, earlier h]
    · exact earlier h

/-- A LOADED image brings every value into its range (R178, R15, R39, R55, R127). -/
theorem Profile.load_ok {pr : Profile} (h : pr.ok) (acked : List Byte) : (pr.load acked).1.ok := by
  obtain ⟨-, -, hr, -, -⟩ := pr.ok_iff.mp h
  have raw := Profile.loadedRaw_ranged hr acked
  have hmeters (i : Fin 4) : (pr.load acked).1.meters[i].inRange := by
    rw [Profile.load_eq]
    exact (getElem_ofFn_fin _ i).symm ▸ MeterProfile.clamped_inRange (raw.meters i)
  have ranged : (pr.load acked).1.Ranged := by
    rw [Profile.load_eq] at hmeters ⊢
    exact { raw with
      meters := fun i => (hmeters i).ranged
      cc := Nat.max_le.mpr ⟨raw.cc, raw.wc⟩
      hmax := ⟨raw.hmax.1.trans (Nat.le_max_left _ _), Nat.max_le.mpr ⟨raw.hmax.2, raw.hb.2.trans (by decide)⟩⟩ }
  refine (Profile.ok_iff _).mpr ⟨Profile.load_windowsOk pr acked, hmeters, ranged, ?_, ?_⟩ <;> rw [Profile.load_eq]
  · exact Nat.le_max_right _ _
  · exact Nat.le_max_right _ _

/-! ### The profile over the commands -/

theorem Profile.defaults_ok (unit : BitVec 40) : (Profile.defaults unit).ok := by
  have h : (Profile.defaults 0).ok := by decide +kernel
  exact h

theorem State.loaded_ok {s : State} (h : s.profile.ok) (acked : List Byte) : (s.loaded acked).1.ok := by
  unfold State.loaded
  split
  · exact Profile.load_ok h acked
  · exact h

theorem State.becomeRunning_profile (s : State) : s.becomeRunning.profile = s.profile :=
  frame_becomeRunning s .profile (notIn rfl)

theorem State.endLoad_profile (s : State) (acked : List Byte) : (s.endLoad acked).profile = (s.loaded acked).1 := by
  rw [endLoad_eq, State.becomeRunning_profile, State.setAttached_profile]
  rfl

/-- What a WRITE_PROFILE can do: nothing, an answer that refuses it, or the run of its fields (R13, R171). -/
theorem writeProfile_cases {cp : CtlPort} {start count : Byte} {values : List Byte} {s u : State}
    (h : exec (.writeProfile cp start count values) s = .next u) :
    u = s ∨ (∃ st, u = s.answer cp st [] .fixed)
      ∨ ∃ vs st, splitValues (writeFields start count) values = some vs ∧ cp = .cp0 ∧ s.store.condition = .ready
          ∧ u = (s.writeRun vs).1.answer cp st [] .fixed := by
  change execWriteProfile cp start count values s = .next u at h
  unfold execWriteProfile at h
  split at h
  · exact .inl (Host.Outcome.next.inj h).symm
  · rcases command_cases h with ⟨-, hu⟩ | ⟨st, -, hu⟩ | ⟨hc, hu⟩
    · exact .inl hu
    · exact .inr (.inl ⟨st, hu⟩)
    · simp only [firstFailure_none, List.forall_mem_cons, State.storeBusy, Bool.or_eq_false_iff, decide_eq_false_iff_not,
        not_not] at hc
      split at hu
      · exact .inl hu
      · next vs hvs =>
        refine .inr (.inr ⟨vs, _, hvs, ?_, hc.2.2.1.1, hu⟩)
        cases cp with
        | cp0 => rfl
        | cp1 => exact absurd hc.1 (by decide)

/-- A command keeps the profile in order (R10, R14, R38, R55, R127, R171, R189). -/
theorem exec_profile_ok {c : Instr} {s u : State} (hs : s.profile.ok) (h : exec c s = .next u) : u.profile.ok := by
  by_cases hw : Part.profile ∈ writes c
  · cases c with
    | resetAssert =>
      obtain rfl := Host.Outcome.next.inj h
      exact Profile.defaults_ok s.unitNumber
    | resetRelease =>
      obtain rfl := Host.Outcome.next.inj h
      split
      · exact Profile.defaults_ok s.unitNumber
      · exact hs
    | loadEnd acked =>
      rcases powered_cases h with ⟨-, rfl⟩ | ⟨-, rfl⟩
      · split
        · exact (State.endLoad_profile s acked).symm ▸ State.loaded_ok hs acked
        · exact hs
      · exact hs
    | writeProfile cp start count values =>
      rcases writeProfile_cases h with rfl | ⟨st, rfl⟩ | ⟨vs, st, -, -, -, rfl⟩
      · exact hs
      · exact hs
      · exact State.writeRun_ok hs vs
    | _ => exact (notIn rfl hw).elim
  · have hp : u.profile = s.profile := exec_frame h .profile hw
    exact hp ▸ hs

set_option Elab.async false in
/-- What a step takes from the queue keeps what every command keeps, if it does not speak of the queue. -/
theorem step_keeps {P : State → Prop} (hq : ∀ (s : State) (q : List Instr), P s → P { s with pending := q })
    (hc : ∀ (c : Instr) (s u : State), P s → exec c s = .next u → P u) {s t : State} (hs : P s) (h : step s = .next t) :
    P t := by
  unfold step at h
  split at h
  · exact Host.Outcome.next.inj h ▸ hs
  · exact hc _ _ _ (hq s _ hs) h

/-- Settles O58: by the commands that write the profile. -/
theorem profileStaysInRange : Obligations.ProfileStaysInRange := fun _ _ hs h =>
  step_keeps (P := fun s => s.profile.ok) (fun _ _ h => h) (fun _ _ _ => exec_profile_ok) hs h

end Sys2Proof.Machine
end

section
/-! PROOF. The probe list, the taps, the fingerprint table and the counts each stay in order over every command (R17, R21,
R23, R25, R27, R48, R69, R71, R99, R153, R165). -/

namespace Sys2Proof.Machine

open Sys2Proof.Spec

/-! ### Sequence numbers (R69) -/

/-- The number given stands so many steps after the counter, behind numbers in use, and is in use itself only where the
search has run out of steps. -/
theorem freshSequence_steps (used : List Word16) (n : Nat) (c : Word16) :
    ∃ k ≤ n, freshSequence used n c = c + BitVec.ofNat 16 k ∧ (∀ j < k, c + BitVec.ofNat 16 j ∈ used)
      ∧ (k < n → freshSequence used n c ∉ used) := by
  induction n generalizing c with
  | zero => exact ⟨0, le_refl 0, by simp [freshSequence], by simp, by simp⟩
  | succ n ih =>
    by_cases hc : c ∈ used
    · obtain ⟨k, hk, he, hj, hn⟩ := ih (c + 1)
      have hsucc (j : Nat) : c + 1 + BitVec.ofNat 16 j = c + BitVec.ofNat 16 (j + 1) := by
        rw [BitVec.add_assoc, BitVec.ofNat_add, BitVec.add_comm (BitVec.ofNat 16 j)]
        rfl
      refine ⟨k + 1, by omega, ?_, fun j hj' => ?_, fun h => ?_⟩
      · rw [freshSequence, if_pos hc, he, hsucc]
      · cases j with
        | zero => simpa using hc
        | succ j => exact hsucc j ▸ hj j (by omega)
      · rw [freshSequence, if_pos hc]
        exact hn (by omega)
    · refine ⟨0, by omega, by simp [freshSequence, hc], by simp, fun _ => ?_⟩
      rwa [freshSequence, if_neg hc]

/-- Successive numbers of the counter are different as long as it has not gone round. -/
theorem successive_nodup (c : Word16) {n : Nat} (h : n ≤ 65536) :
    ((List.range n).map fun j => c + BitVec.ofNat 16 j).Nodup := by
  refine List.Nodup.map_on (fun i hi j hj hij => ?_) List.nodup_range
  have := congrArg BitVec.toNat ((BitVec.add_right_inj c).mp hij)
  simp only [List.mem_range] at hi hj
  simpa [Nat.mod_eq_of_lt, (by omega : i < 65536), (by omega : j < 65536)] using this

/-- With fewer numbers in use than there are, the number given is not in use: the numbers skipped cannot be all of those in
use and one more. -/
theorem freshSequence_spec {used : List Word16} (h : used.length < 65536) (c : Word16) :
    ∃ k, freshSequence used used.length c = c + BitVec.ofNat 16 k ∧ (∀ j < k, c + BitVec.ofNat 16 j ∈ used)
      ∧ freshSequence used used.length c ∉ used := by
  obtain ⟨k, hk, he, hj, hn⟩ := freshSequence_steps used used.length c
  refine ⟨k, he, hj, fun hmem => ?_⟩
  obtain rfl : k = used.length := Nat.le_antisymm hk (Nat.le_of_not_lt fun hlt => hn hlt hmem)
  have hsub : ((List.range (used.length + 1)).map fun j => c + BitVec.ofNat 16 j) ⊆ used := by
    intro x hx
    obtain ⟨j, hj', rfl⟩ := List.mem_map.mp hx
    rcases Nat.lt_or_eq_of_le (Nat.le_of_lt_succ (List.mem_range.mp hj')) with hlt | rfl
    · exact hj j hlt
    · exact he ▸ hmem
  have := (List.subperm_of_subset (successive_nodup c (by omega)) hsub).length_le
  simp at this

/-! ### The probe list (R69, R71) -/

/-- A probe list in order: `State.listOk` said of the list. -/
def ProbesOk (ps : List ProbeEntry) : Prop :=
  ps.length ≤ Config.listEntries ∧ (ps.map (·.sequence)).Nodup ∧ ∀ e ∈ ps, e.valid ≤ 255 ∧ e.stale ≤ 255

theorem listOk_iff (s : State) : s.listOk ↔ ProbesOk s.probes := Iff.rfl

set_option Elab.async false in
theorem listOk_of_probes {t : State} {ps : List ProbeEntry} (hp : t.probes = ps) (h : ProbesOk ps) : t.listOk := by
  rw [listOk_iff, hp]
  exact h

/-- Entries that leave keep the list in order. -/
theorem ProbesOk.sublist {ps qs : List ProbeEntry} (h : ProbesOk ps) (hsub : qs.Sublist ps) : ProbesOk qs := by
  obtain ⟨hlen, hnodup, hcounts⟩ := h
  exact ⟨hsub.length_le.trans hlen, hnodup.sublist (hsub.map _), fun e he => hcounts e (hsub.subset he)⟩

/-- A change of entries that keeps their sequence numbers and their counts in range keeps the list in order. -/
theorem ProbesOk.map {ps : List ProbeEntry} (h : ProbesOk ps) {f : ProbeEntry → ProbeEntry}
    (hseq : ∀ e, (f e).sequence = e.sequence)
    (hcounts : ∀ e, e.valid ≤ 255 ∧ e.stale ≤ 255 → (f e).valid ≤ 255 ∧ (f e).stale ≤ 255) : ProbesOk (ps.map f) := by
  obtain ⟨hlen, hnodup, hall⟩ := h
  refine ⟨by simpa using hlen, ?_, fun e he => ?_⟩
  · simpa [List.map_map, Function.comp_def, hseq] using hnodup
  · obtain ⟨x, hx, rfl⟩ := List.mem_map.mp he
    exact hcounts x (hall x hx)

theorem ProbesOk.nil : ProbesOk [] := ⟨by decide, .nil, by simp⟩

/-- A service enters a fresh sequence number at a list that has room (R67, R69). -/
theorem ProbesOk.serve {s : State} (h : s.listOk) (hroom : s.probes.length < Config.listEntries) (p : Port) :
    ProbesOk (s.probes ++ [s.newEntry p]) := by
  obtain ⟨-, hnodup, hcounts⟩ := h
  obtain ⟨-, -, -, hfresh⟩ := freshSequence_spec (used := s.probes.map (·.sequence))
    (by simp only [List.length_map, Config.listEntries] at hroom ⊢; omega) s.seqCounter
  rw [List.length_map] at hfresh
  refine ⟨by simpa using hroom, ?_, ?_⟩
  · rw [List.map_append, List.map_singleton]
    exact List.nodup_append.mpr ⟨hnodup, List.nodup_singleton _, fun x hx y hy hxy =>
      hfresh (by rwa [hxy, List.mem_singleton.mp hy] at hx)⟩
  · simp only [List.mem_append, List.mem_singleton]
    rintro e (he | rfl)
    · exact hcounts e he
    · exact ⟨Nat.zero_le _, Nat.zero_le _⟩

set_option Elab.async false in
theorem ProbeEntry.returned_counts (e : ProbeEntry) (stale : Bool) (h : e.valid ≤ 255 ∧ e.stale ≤ 255) :
    (e.returned stale).valid ≤ 255 ∧ (e.returned stale).stale ≤ 255 := by
  unfold ProbeEntry.returned
  split
  · exact ⟨h.1, Nat.min_le_right _ _⟩
  · exact ⟨Nat.min_le_right _ _, h.2⟩

theorem ProbeEntry.returned_sequence (e : ProbeEntry) (stale : Bool) : (e.returned stale).sequence = e.sequence := by
  unfold ProbeEntry.returned
  split <;> rfl

theorem countReturn_listOk {s : State} (h : s.listOk) (head : List Byte) (p : Port) (stale : Bool) :
    (s.countReturn head p stale).listOk := by
  unfold State.countReturn
  split
  · exact h
  · refine ProbesOk.map h (fun e => ?_) (fun e he => ?_) <;> split
    · exact e.returned_sequence stale
    · rfl
    · exact e.returned_counts stale he
    · exact he

theorem noteReturn_listOk {s : State} (h : s.listOk) (w : Working) : (s.noteReturn w).listOk := by
  unfold State.noteReturn
  split
  · exact h
  · exact h
  · exact h
  · exact countReturn_listOk h _ _ _
  · exact countReturn_listOk h _ _ _

theorem takeFrame_listOk {s : State} (h : s.listOk) : s.takeFrame.listOk := by
  rcases takeFrame_cases s with h' | ⟨t, x, rest, -, -, -, h'⟩ <;> rw [h']
  · exact h
  · exact noteReturn_listOk (s := { s.updTap t fun y => { y with fifo := rest } with lastTaken := t }) h _

set_option Elab.async false in
theorem retireUnsent_listOk {s : State} (h : s.listOk) (sequence : Word16) : (s.retireUnsent sequence).listOk := by
  unfold State.retireUnsent
  split
  · exact h
  · next e he =>
    have hp : (State.unsent { s with probes := s.probes.eraseP fun e => decide (e.sequence = sequence) } e).probes = _ :=
      frame_unsent _ e .probes (notIn rfl)
    exact listOk_of_probes hp (ProbesOk.sublist h List.eraseP_sublist)

theorem departed_listOk {s : State} (h : s.listOk) (q : TxProbe) : (s.departed q).listOk := by
  unfold State.departed
  split
  · exact h
  · refine ProbesOk.map (f := fun e => e.sentAs q.sequence) h (fun e => ?_) (fun e he => ?_) <;> unfold ProbeEntry.sentAs <;>
      split
    · rfl
    · rfl
    · exact he
    · exact he

/-- What a serving attempt finds of a port to be served: the arbiter's choice, with a place in the queue and in the list. -/
theorem attemptFinds_serve {s : State} {t : TapId} {p : Port} (h : s.attemptFinds t = .serve p) :
    s.arbiter t = some p ∧ (s.taps.get t).queue.length < Config.queuePlaces ∧ s.probes.length < Config.listEntries := by
  unfold State.attemptFinds at h
  split at h
  · cases h
  · next q hq =>
    split at h
    · cases h
    · next hroom =>
      split at h
      · next hlist =>
        obtain rfl := AttemptFind.serve.inj h
        exact ⟨hq, Nat.lt_of_not_le hroom, hlist⟩
      · cases h

theorem attempt_listOk {s : State} (h : s.listOk) (t : TapId) : (s.attempt t).listOk := by
  unfold State.attempt
  split
  · exact h
  · next p hp =>
    unfold State.serve
    split
    · exact h
    · exact ProbesOk.serve h (attemptFinds_serve hp).2.2 p
  · exact h

set_option Elab.async false in
/-- Every command keeps the probe list in order (R69, R71). -/
theorem exec_listOk {c : Instr} {s u : State} (hs : s.listOk) (h : exec c s = .next u) : u.listOk := by
  by_cases hw : Part.probes ∈ writes c
  · cases c with
    | resetAssert => exact Host.Outcome.next.inj h ▸ ProbesOk.nil
    | resetRelease =>
      obtain rfl := Host.Outcome.next.inj h
      split
      · exact ProbesOk.nil
      · exact hs
    | tapLinkDown t =>
      refine keeps_powered (P := State.listOk) h hs ?_
      split
      · refine List.foldlRecOn (motive := State.listOk) _ _ hs fun s hs q _ => ?_
        exact retireUnsent_listOk hs q.sequence
      · exact hs
    | analysisTake =>
      refine keeps_powered (P := State.listOk) h hs ?_
      split
      · exact takeFrame_listOk hs
      · next w _ =>
        exact listOk_of_probes (frame_conclude _ w .probes (notIn rfl)) hs
    | probeRetireLife =>
      refine keeps_powered (P := State.listOk) h hs ?_
      split
      · exact hs
      · next e rest hps =>
        split
        · have hp : ({ s with probes := rest }.retireSent e).entryFreed.probes = rest :=
            State.agree_trans (P := .probes) (frame_retireSent { s with probes := rest } e .probes (notIn rfl))
              (frame_entryFreed _ .probes (notIn rfl))
          exact listOk_of_probes hp (ProbesOk.sublist hs (hps ▸ List.sublist_cons_self e rest))
        · exact hs
    | queuedEntryLife =>
      refine keeps_powered (P := State.listOk) h hs ?_
      split
      · exact hs
      · next e rest hps =>
        split
        · refine listOk_of_probes (frame_unsent _ e .probes (notIn rfl)) (ProbesOk.sublist hs ?_)
          exact hps ▸ List.sublist_cons_self e rest
        · exact hs
    | servingAttempt t =>
      refine keeps_powered (P := State.listOk) h hs ?_
      split
      · exact attempt_listOk hs _
      · exact hs
    | probeDeparture t =>
      refine keeps_powered (P := State.listOk) h hs ?_
      split
      · exact hs
      · unfold State.orphanDeparted
        split <;> exact hs
      · split
        · exact hs
        · exact departed_listOk (by exact hs) _
    | restartEngine cp hold =>
      refine keeps_command (P := State.listOk) h hs (fun _ => hs) ?_
      split
      · unfold State.restartEngine
        split <;> exact ProbesOk.nil
      · exact hs
    | _ => exact (notIn rfl hw).elim
  · exact listOk_of_probes (exec_frame h .probes hw) hs

end Sys2Proof.Machine
end

section
/-! PROOF. The choice of a port with the highest value, the first in an order among equals: the top contributor of the class
meter (R52, R54) and the arbiter of a tap (R64). -/

namespace Sys2Proof.Machine

open Sys2Proof.Spec

/-! ### The first port with the highest value -/

/-- One port met in a search for the highest value: taken if it may be and exceeds the best so far. -/
def pick (may : Port → Bool) (value : Port → Nat) (best : Option Port) (p : Port) : Option Port :=
  if may p then
    match best with
    | none => some p
    | some b => if value b < value p then some p else some b
  else best

/-- A port that may be chosen, with the highest value and the lowest rank among equals. -/
def IsBest (may : Port → Bool) (value rank : Port → Nat) (xs : List Port) (p : Port) : Prop :=
  p ∈ xs ∧ may p = true ∧ ∀ q ∈ xs, may q = true → value q < value p ∨ (value q = value p ∧ rank p ≤ rank q)

section
variable {may : Port → Bool} {value rank : Port → Nat} {xs : List Port}

theorem IsBest.unique (hr : rank.Injective) {p q : Port} (hp : IsBest may value rank xs p) (hq : IsBest may value rank xs q) :
    p = q := by
  obtain ⟨hp, hmp, hbp⟩ := hp
  obtain ⟨hq, hmq, hbq⟩ := hq
  have h1 := hbp q hq hmq
  have h2 := hbq p hp hmp
  exact hr (by omega)

theorem isBest_append_singleton {x p : Port} : IsBest may value rank (xs ++ [x]) p ↔ (p ∈ xs ∨ p = x) ∧ may p = true
    ∧ (∀ q ∈ xs, may q = true → value q < value p ∨ (value q = value p ∧ rank p ≤ rank q))
    ∧ (may x = true → value x < value p ∨ (value x = value p ∧ rank p ≤ rank x)) := by
  simp only [IsBest, List.mem_append, List.mem_singleton, or_imp, forall_and, forall_eq]

/-- One more port, of a rank above all so far, is the best or leaves the best. -/
theorem pick_isBest {x : Port} {best : Option Port} (hrank : ∀ q ∈ xs, rank q < rank x)
    (hnone : best = none → ∀ q ∈ xs, may q = false) (hsome : ∀ b, best = some b → IsBest may value rank xs b) :
    (pick may value best x = none → ∀ q ∈ xs ++ [x], may q = false)
      ∧ ∀ b, pick may value best x = some b → IsBest may value rank (xs ++ [x]) b := by
  simp only [isBest_append_singleton, List.forall_mem_append, List.forall_mem_singleton]
  cases hx : may x with
  | false =>
    have hpick : pick may value best x = best := if_neg (by simp [hx])
    rw [hpick]
    refine ⟨fun h => ⟨hnone h, rfl⟩, fun b hb => ?_⟩
    obtain ⟨hmem, hmay, hall⟩ := hsome b hb
    exact ⟨.inl hmem, hmay, hall, fun h => absurd h Bool.false_ne_true⟩
  | true =>
    cases best with
    | none =>
      have hpick : pick may value none x = some x := if_pos hx
      rw [hpick]
      refine ⟨by simp, fun b hb => ?_⟩
      obtain rfl := Option.some.inj hb
      exact ⟨.inr rfl, hx, fun q hq hmq => absurd (hnone rfl q hq) (by simp [hmq]), fun _ => .inr ⟨rfl, le_refl _⟩⟩
    | some b =>
      obtain ⟨hmem, hmay, hall⟩ := hsome b rfl
      have hpick : pick may value (some b) x = if value b < value x then some x else some b := if_pos hx
      rw [hpick]
      by_cases hlt : value b < value x
      · refine ⟨by simp [hlt], fun c hc => ?_⟩
        simp only [hlt, if_true, Option.some.injEq] at hc
        subst hc
        refine ⟨.inr rfl, hx, fun q hq hmq => .inl ?_, fun _ => .inr ⟨rfl, le_refl _⟩⟩
        have := hall q hq hmq
        omega
      · refine ⟨by simp [hlt], fun c hc => ?_⟩
        simp only [hlt, if_false, Option.some.injEq] at hc
        subst hc
        have := hrank b hmem
        exact ⟨.inl hmem, hmay, hall, fun _ => by omega⟩

/-- The search over ports in rising rank gives none where no port may be chosen, and else the best. -/
theorem foldl_pick (hxs : xs.Pairwise (rank · < rank ·)) :
    (xs.foldl (pick may value) none = none → ∀ q ∈ xs, may q = false)
      ∧ ∀ p, xs.foldl (pick may value) none = some p → IsBest may value rank xs p := by
  induction xs using List.reverseRecOn with
  | nil => simp
  | append_singleton xs x ih =>
    obtain ⟨hxs, -, hx⟩ := List.pairwise_append.mp hxs
    obtain ⟨hnone, hsome⟩ := ih hxs
    rw [List.foldl_append, List.foldl_cons, List.foldl_nil]
    exact pick_isBest (fun q hq => hx q hq x (List.mem_singleton_self x)) hnone hsome

theorem foldl_pick_eq_some (hr : rank.Injective) (hxs : xs.Pairwise (rank · < rank ·)) (p : Port) :
    xs.foldl (pick may value) none = some p ↔ IsBest may value rank xs p := by
  refine ⟨(foldl_pick hxs).2 p, fun hp => ?_⟩
  cases h : xs.foldl (pick may value) none with
  | none => exact absurd ((foldl_pick hxs).1 h p hp.1) (by simp [hp.2.1])
  | some q => rw [((foldl_pick hxs).2 q h).unique hr hp]

set_option Elab.async false in
theorem foldl_pick_eq_none (hxs : xs.Pairwise (rank · < rank ·)) :
    xs.foldl (pick may value) none = none ↔ ∀ q ∈ xs, may q = false := by
  refine ⟨(foldl_pick hxs).1, fun hall => ?_⟩
  cases h : xs.foldl (pick may value) none with
  | none => rfl
  | some q =>
    obtain ⟨hq, hmq, -⟩ := (foldl_pick hxs).2 q h
    exact absurd (hall q hq) (by simp [hmq])

end

/-! ### The top contributor (R52, R54) -/

theorem mem_allPorts (p : Port) : p ∈ allPorts := List.mem_finRange p

theorem allPorts_pairwise : allPorts.Pairwise fun p q : Port => p.val < q.val := List.pairwise_lt_finRange 48

theorem topContributor_eq (s : State) : s.topContributor =
    allPorts.foldl (pick (fun p => (s.port p).candidate) fun p => (s.port p).level) none := rfl

theorem PortRec.candidate_iff (r : PortRec) :
    r.candidate = true ↔ r.mode = .auto ∧ (r.state = .opened ∨ r.state = .watch) ∧ 1 ≤ r.level := by
  simp [PortRec.candidate, and_assoc]

set_option Elab.async false in
/-- The class meter hands one request, as R52 and R54 say which. -/
theorem classChoose_eq (s : State) : s.classChoose = { s with gateReqs := s.gateReqs ++ [classRequest s] } := by
  unfold State.classChoose classRequest
  cases s.topContributor <;> rfl

/-- Settles O34: the search over the candidates in ascending order. -/
theorem topContributorIsTheHighestCandidate : Obligations.TopContributorIsTheHighestCandidate := by
  refine fun s => ⟨fun p => ?_, ?_, classChoose_eq s⟩
  · rw [topContributor_eq, foldl_pick_eq_some Fin.val_injective allPorts_pairwise]
    simp only [IsBest, mem_allPorts, true_and, true_implies, PortRec.candidate_iff]
  · rw [topContributor_eq, foldl_pick_eq_none (rank := Fin.val) allPorts_pairwise]
    simp only [mem_allPorts, true_implies, ← Bool.not_eq_true, PortRec.candidate_iff]

/-! ### The arbiter (R64) -/

/-- How many ports the round robin meets before a port, after the last served one. -/
def turnAfter (last q : Port) : Nat := (q.val + 47 - last.val) % 48

theorem turnAfter_injective (last : Port) : (turnAfter last).Injective := fun p q h => by
  simp only [turnAfter] at h
  exact Fin.ext (by omega)

/-- The round robin meets the ports in the order of their turns, 47 going to 0. -/
theorem roundRobin_pairwise (last : Port) : (roundRobin last).Pairwise (turnAfter last · < turnAfter last ·) := by
  refine List.pairwise_map.mpr (allPorts_pairwise.imp fun {p q} h => ?_)
  have turn (i : Port) : turnAfter last (last + 1 + i) = i.val := by
    simp only [turnAfter, Fin.val_add, Fin.val_one]
    omega
  rw [turn, turn]
  exact h

theorem mem_roundRobin (last p : Port) : p ∈ roundRobin last :=
  List.mem_map.mpr ⟨p - (last + 1), mem_allPorts _, by simp⟩

theorem arbiter_eq (s : State) (t : TapId) : s.arbiter t =
    (roundRobin (s.taps.get t).lastServed).foldl (pick (s.servable t) fun p => (s.port p).backlog) none := rfl

set_option Elab.async false in
/-- The port chosen is one that may be served, of the highest backlog, and of those the one whose turn is next (R64). -/
theorem arbiter_eq_some (s : State) (t : TapId) (p : Port) : s.arbiter t = some p ↔ s.servable t p = true
    ∧ ∀ q, s.servable t q = true → (s.port q).backlog < (s.port p).backlog ∨ ((s.port q).backlog = (s.port p).backlog
      ∧ turnAfter (s.taps.get t).lastServed p ≤ turnAfter (s.taps.get t).lastServed q) := by
  rw [arbiter_eq, foldl_pick_eq_some (turnAfter_injective _) (roundRobin_pairwise _)]
  simp only [IsBest, mem_roundRobin, true_and, true_implies]

theorem arbiter_eq_none (s : State) (t : TapId) : s.arbiter t = none ↔ ∀ q, s.servable t q = false := by
  rw [arbiter_eq, foldl_pick_eq_none (roundRobin_pairwise _)]
  simp only [mem_roundRobin, true_implies]

theorem arbiter_servable {s : State} {t : TapId} {p : Port} (h : s.arbiter t = some p) : s.servable t p = true :=
  ((arbiter_eq_some s t p).mp h).1

/-- A port is eligible on the tap that its reverse mapping names, as R62 says. -/
theorem eligibleOn_iff (s : State) (t : TapId) (p : Port) : s.eligibleOn t p = true ↔
    s.running = true ∧ (s.port p).mode = .auto ∧ (s.port p).state.probed = true ∧ (s.port p).linkUp = true
      ∧ (∃ f, s.profile.reverse p = some (t, f)) ∧ (s.taps.get t).linkUp = true := by
  unfold State.eligibleOn
  cases s.profile.reverse p with
  | none => simp
  | some x =>
    obtain ⟨t', f⟩ := x
    by_cases ht : t' = t
    · subst ht
      simp [and_assoc]
    · simp [ht]

set_option Elab.async false in
theorem servable_iff (s : State) (t : TapId) (p : Port) :
    s.servable t p = true ↔ s.eligibleOn t p = true ∧ 1 ≤ (s.port p).backlog := by
  simp [State.servable]

end Sys2Proof.Machine
end

section
/-! PROOF. The taps, the fingerprint table and the counts each stay in order over every command (R17, R21, R23, R25, R27,
R48, R99, R153, R165). -/

namespace Sys2Proof.Machine

open Sys2Proof.Spec

/-! ### Lengths of bytes -/

@[simp] theorem bytesAt_length (bs : List Byte) (k n : Nat) : (bytesAt bs k n).length = n := by simp [bytesAt]

@[simp] theorem beBytes_length (n v : Nat) : (beBytes n v).length = n := by
  induction n with
  | zero => rfl
  | succ n ih => simp [beBytes, ih]

theorem headBytes_length (f : TapFrame) : (headBytes f).length = 96 := bytesAt_length _ _ _

theorem probePayload_length (chassis : BitVec 32) (run : BitVec 4) (egress : Port) (sequence emit epoch : Word16) :
    (probePayload chassis run egress sequence emit epoch).length = 12 := by simp [probePayload]

theorem probeFrame_length (pr : Profile) (f : FabricPort) {payload : List Byte} (h : payload.length = 12) :
    (probeFrame pr f payload).length = 64 := by simp [probeFrame, h]

/-! ### One tap (R17, R21, R23, R27) -/

/-- The order of a tap does not speak of its pending attempts. -/
theorem TapRec.ok_of_bare {x y : TapRec} (h : y.bare = x.bare) (hx : x.ok) : y.ok := by
  have hy : y.bare.ok := h ▸ hx
  exact hy

theorem TapRec.lost_ok {x : TapRec} (h : x.ok) : x.lost.ok := by
  obtain ⟨-, -, -, -, -, hcounts⟩ := h
  exact ⟨Nat.zero_le _, by simp [TapRec.lost], Nat.zero_le _, by simp [TapRec.lost], fun _ => ⟨rfl, rfl, rfl⟩, hcounts⟩

theorem TapRec.restart_ok {x : TapRec} (h : x.ok) : x.restart.ok := by
  obtain ⟨-, -, -, -, hdown, hcounts⟩ := h
  refine ⟨Nat.zero_le _, by simp [TapRec.restart], Nat.zero_le _, by simp [TapRec.restart], fun hlink => ⟨rfl, rfl, ?_⟩, hcounts⟩
  obtain ⟨-, hqueue, hsending⟩ := hdown hlink
  simp [TapRec.restart, hqueue, hsending]

/-- A frame taken from the FIFO frees its slot. -/
theorem TapRec.taken_ok {x : TapRec} (h : x.ok) {f : Slot} {rest : List Slot} (hf : x.fifo = f :: rest) :
    TapRec.ok { x with fifo := rest } := by
  obtain ⟨hlen, hheads, hqueue, hframes, hdown, hcounts⟩ := h
  rw [hf] at hlen hheads hdown
  exact ⟨(Nat.le_succ _).trans hlen, fun g hg => hheads g (List.mem_cons_of_mem _ hg), hqueue, hframes,
    fun hlink => absurd (hdown hlink).1 (List.cons_ne_nil _ _), hcounts⟩

/-- A frame stored in a FIFO with a slot, its link UP. -/
theorem TapRec.stored_ok {x : TapRec} (h : x.ok) (hroom : x.fifo.length < Config.fifoSlots) (hlink : x.linkUp = true)
    {f : Slot} (hf : f.head.length = 96) : TapRec.ok { x with fifo := x.fifo ++ [f] } := by
  obtain ⟨hlen, hheads, hqueue, hframes, hdown, hcounts⟩ := h
  refine ⟨by simpa using hroom, fun g hg => ?_, hqueue, hframes, fun hl => absurd (hlink.symm.trans hl) (by simp), hcounts⟩
  rcases List.mem_append.mp hg with hg | hg
  · exact hheads g hg
  · exact List.mem_singleton.mp hg ▸ hf

/-- A probe queued at a place, its link UP. -/
theorem TapRec.queued_ok {x : TapRec} (h : x.ok) (hroom : x.queue.length < Config.queuePlaces) (hlink : x.linkUp = true)
    {q : TxProbe} (hq : q.frame.length = 64) (p : Port) :
    TapRec.ok { x with queue := x.queue ++ [q], lastServed := p } := by
  obtain ⟨hlen, hheads, hqueue, hframes, hdown, hcounts⟩ := h
  refine ⟨hlen, hheads, by simpa using hroom, fun g hg => ?_, fun hl => absurd (hlink.symm.trans hl) (by simp), hcounts⟩
  rcases List.mem_append.mp hg with hg | hg
  · exact hframes g hg
  · exact List.mem_singleton.mp hg ▸ hq

/-- Probes that leave the queue, with the sending they end or leave. -/
theorem TapRec.shorter_ok {x : TapRec} (h : x.ok) {queue : List TxProbe} (hq : queue.length ≤ x.queue.length)
    (hframes : ∀ q ∈ queue, q.frame.length = 64) {sending : Sending} (hs : x.sending = .idle → sending = .idle) (n : Nat) :
    TapRec.ok { x with queue := queue, sending := sending, attempts := n } := by
  obtain ⟨hlen, hheads, hqueue, -, hdown, hcounts⟩ := h
  refine ⟨hlen, hheads, hq.trans hqueue, hframes, fun hlink => ?_, hcounts⟩
  obtain ⟨hfifo, hempty, hidle⟩ := hdown hlink
  rw [hempty] at hq
  exact ⟨hfifo, List.length_eq_zero_iff.mp (Nat.le_zero.mp hq), hs hidle⟩

/-- What is taken out of the queue at an entry's life: the probe's copies, but for one at the head that is being sent, whose
entry is gone (R74). -/
theorem TapRec.dropProbe_eq (x : TapRec) (sequence : Word16) : ∃ n, x.attempts ≤ n ∧ x.dropProbe sequence =
    (let keep (q : TxProbe) : Bool := decide (q.sequence ≠ sequence) || q.entryGone
     { x with attempts := n, queue := match x.sending, x.queue with
        | .head, q :: rest => (if keep q then q else { q with entryGone := true }) :: rest.filter keep
        | _, queue => queue.filter keep }) := by
  unfold TapRec.dropProbe
  dsimp only
  cases x.sending with
  | head =>
    cases x.queue with
    | nil => exact ⟨_, Nat.le_add_right _ _, rfl⟩
    | cons q rest => exact ⟨_, Nat.le_add_right _ _, rfl⟩
  | idle => exact ⟨_, Nat.le_add_right _ _, rfl⟩
  | orphan p => exact ⟨_, Nat.le_add_right _ _, rfl⟩

theorem TapRec.dropProbe_ok {x : TapRec} (h : x.ok) (sequence : Word16) : (x.dropProbe sequence).ok := by
  obtain ⟨n, -, hx⟩ := x.dropProbe_eq sequence
  rw [hx]
  have hframes : ∀ q ∈ x.queue, q.frame.length = 64 := h.2.2.2.1
  have dropped (keep : TxProbe → Bool) : TapRec.ok { x with attempts := n, queue := x.queue.filter keep } :=
    TapRec.shorter_ok h (List.length_filter_le _ _) (fun q hq => hframes q (List.mem_of_mem_filter hq)) (fun hs => hs) n
  dsimp only
  split
  · next q rest hs hq =>
    refine TapRec.shorter_ok h ?_ (fun r hr => ?_) (fun hs => hs) n
    · rw [hq]
      exact Nat.succ_le_succ (List.length_filter_le _ _)
    · rw [hq] at hframes
      rcases List.mem_cons.mp hr with rfl | hr
      · split
        · exact hframes q List.mem_cons_self
        · exact hframes q List.mem_cons_self
      · exact hframes r (List.mem_cons_of_mem _ (List.mem_of_mem_filter hr))
  · exact dropped _

/-! ### Both taps -/

theorem State.tapsOk.get {s : State} (h : s.tapsOk) (t : TapId) : (s.taps.get t).ok := by
  cases t
  · exact h.1
  · exact h.2.1

/-- A change of one tap that keeps its order. -/
theorem State.tapsOk.updTap {s : State} (h : s.tapsOk) {t : TapId} {f : TapRec → TapRec}
    (hf : (s.taps.get t).ok → (f (s.taps.get t)).ok) : (s.updTap t f).tapsOk := by
  obtain ⟨ha, hb, hw⟩ := h
  cases t with
  | a => exact ⟨hf ha, hb, hw⟩
  | b => exact ⟨ha, hf hb, hw⟩

/-- Changes outside the taps and the frame under analysis, or of pending attempts, keep the taps in order. -/
theorem tapsOk_of_frame {W : List Part} {s t : State} (hs : s.tapsOk) (h : Frame W s t) (htaps : .taps ∉ W)
    (hframe : .analysing ∉ W) : t.tapsOk := by
  obtain ⟨ha, hb, -⟩ := h .taps htaps
  have hw : t.analysing = s.analysing := h .analysing hframe
  exact ⟨TapRec.ok_of_bare ha hs.1, TapRec.ok_of_bare hb hs.2.1, hw ▸ hs.2.2⟩

theorem noteAttempts_tapsOk {s : State} (h : s.tapsOk) (before : State) : (noteAttempts before s).tapsOk :=
  tapsOk_of_frame h (frame_noteAttempts s before) (notIn rfl) (notIn rfl)

theorem takeFrame_tapsOk {s : State} (h : s.tapsOk) : s.takeFrame.tapsOk := by
  rcases takeFrame_cases s with h' | ⟨t, x, rest, -, -, hx, h'⟩ <;> rw [h']
  · exact h
  · obtain ⟨ha, hb, -⟩ := h.updTap (t := t) (f := fun y => { y with fifo := rest }) fun ht => TapRec.taken_ok ht hx
    unfold State.hold
    dsimp only
    rw [noteReturn_frame]
    refine ⟨ha, hb, fun w hw => ?_⟩
    rw [← Option.some.inj hw]
    exact (h.get t).2.1 x (hx ▸ List.mem_cons_self)

set_option Elab.async false in
theorem offer_tapsOk {s : State} (h : s.tapsOk) {t : TapId} (hlink : (s.taps.get t).linkUp = true) (f : TapFrame) (p : Port) :
    (s.offer t f p).tapsOk := by
  unfold State.offer
  split
  · next hroom => exact h.updTap fun ht => TapRec.stored_ok ht hroom hlink (headBytes_length f)
  · exact h

theorem accept_tapsOk {s : State} (h : s.tapsOk) {t : TapId} (hlink : (s.taps.get t).linkUp = true) (f : TapFrame)
    (order : MeterOrder) (p : Port) : (s.accept t f order p).tapsOk := by
  have metered := frame_arrival ((s.census .floodFrames (some p) 1).census .floodUnits (some p) (weight (f.length - 4)))
    order p (weight (f.length - 4))
  unfold State.accept
  dsimp only
  split
  · refine offer_tapsOk (tapsOk_of_frame (by exact h) metered (notIn rfl) (notIn rfl)) ?_ f p
    obtain ⟨ha, hb, -⟩ := metered .taps (notIn rfl)
    cases t with
    | a => exact (congrArg TapRec.linkUp ha).trans hlink
    | b => exact (congrArg TapRec.linkUp hb).trans hlink
  · exact h

theorem attempt_tapsOk {s : State} (h : s.tapsOk) (t : TapId) : (s.attempt t).tapsOk := by
  unfold State.attempt
  split
  · exact h.updTap fun ht => ht
  · next p hp =>
    obtain ⟨hchosen, hroom, -⟩ := attemptFinds_serve hp
    have hlink := ((eligibleOn_iff s t p).mp ((servable_iff s t p).mp (arbiter_servable hchosen)).1).2.2.2.2.2
    unfold State.serve
    split
    · exact h
    · next f _ =>
      have served : (s.updPort p (·.served s.nextSequence)).tapsOk := h
      exact served.updTap (t := t) (f := fun x => { x with queue := x.queue ++ [s.newProbe p f], lastServed := p })
        fun ht => TapRec.queued_ok ht hroom hlink (probeFrame_length _ _ (probePayload_length _ _ _ _ _ _)) p
  · exact h.updTap (t := t) (f := fun x => { x with attempts := x.attempts - 1 }) fun ht => ht

theorem departed_tapsOk {s : State} (h : s.tapsOk) (q : TxProbe) : (s.departed q).tapsOk :=
  tapsOk_of_frame h (frame_departed s q) (notIn rfl) (notIn rfl)

theorem probeDeparture_tapsOk {s u : State} (hs : s.tapsOk) {t : TapId} (h : exec (.probeDeparture t) s = .next u) :
    u.tapsOk := by
  have idle (n : Nat) {queue : List TxProbe} (hq : queue.Sublist (s.taps.get t).queue) (ht : (s.taps.get t).ok) :
      TapRec.ok { s.taps.get t with queue := queue, sending := .idle, attempts := n } :=
    TapRec.shorter_ok ht hq.length_le (fun q hq' => ht.2.2.2.1 q (hq.subset hq')) (fun _ => rfl) n
  refine keeps_powered (P := State.tapsOk) h hs ?_
  split
  · exact hs
  · next q _ =>
    have ended := hs.updTap (f := fun x => { x with sending := .idle }) (idle (s.taps.get t).attempts (.refl _))
    unfold State.orphanDeparted
    split <;> exact ended
  · split
    · exact hs.updTap (idle _ (.refl _))
    · next q rest hq => exact departed_tapsOk (hs.updTap (idle _ (hq ▸ List.sublist_cons_self q rest))) q

theorem tapLinkUp_tapsOk {s u : State} (hs : s.tapsOk) {t : TapId} (h : exec (.tapLinkUp t) s = .next u) :
    u.tapsOk := by
  refine keeps_powered (P := State.tapsOk) h hs ?_
  split
  · exact hs
  · exact noteAttempts_tapsOk (hs.updTap fun ⟨hlen, hheads, hqueue, hframes, _, hcounts⟩ =>
      ⟨hlen, hheads, hqueue, hframes, nofun, hcounts⟩) s

theorem tapLinkDown_tapsOk {s u : State} (hs : s.tapsOk) {t : TapId} (h : exec (.tapLinkDown t) s = .next u) :
    u.tapsOk := by
  refine keeps_powered (P := State.tapsOk) h hs ?_
  split
  · refine List.foldlRecOn (motive := State.tapsOk) _ _ (hs.updTap TapRec.lost_ok) fun s hs q _ => ?_
    exact tapsOk_of_frame hs (frame_retireUnsent s q.sequence) (notIn rfl) (notIn rfl)
  · exact hs

theorem tapFrame_tapsOk {s u : State} (hs : s.tapsOk) {t : TapId} {f : TapFrame} {order : MeterOrder} (h : exec (.tapFrame t f order) s = .next u) :
    u.tapsOk := by
  refine keeps_powered (P := State.tapsOk) h hs ?_
  split
  · next hlink =>
    split
    · exact hs
    · exact hs
    · exact hs.updTap fun ⟨hlen, hheads, hqueue, hframes, hdown, _, hn⟩ =>
        ⟨hlen, hheads, hqueue, hframes, hdown, Nat.min_le_right _ _, hn⟩
    · exact hs.updTap fun ⟨hlen, hheads, hqueue, hframes, hdown, hu, _⟩ =>
        ⟨hlen, hheads, hqueue, hframes, hdown, hu, Nat.min_le_right _ _⟩
    · exact accept_tapsOk hs hlink f order _
  · exact hs

theorem analysisTake_tapsOk {s u : State} (hs : s.tapsOk) (h : exec .analysisTake s = .next u) : u.tapsOk := by
  refine keeps_powered (P := State.tapsOk) h hs ?_
  split
  · exact takeFrame_tapsOk hs
  · next w _ =>
    have free : State.tapsOk { s with analysing := none } := ⟨hs.1, hs.2.1, fun _ h => by cases h⟩
    exact tapsOk_of_frame free (frame_conclude _ w) (notIn rfl) (notIn rfl)

theorem queuedEntryLife_tapsOk {s u : State} (hs : s.tapsOk) (h : exec .queuedEntryLife s = .next u) : u.tapsOk := by
  refine keeps_powered (P := State.tapsOk) h hs ?_
  split
  · exact hs
  · next e rest _ =>
    split
    · have dropped : State.tapsOk { s with
          probes := rest, taps := ⟨s.taps.a.dropProbe e.sequence, s.taps.b.dropProbe e.sequence⟩ } :=
        ⟨TapRec.dropProbe_ok hs.1 _, TapRec.dropProbe_ok hs.2.1 _, hs.2.2⟩
      exact tapsOk_of_frame dropped (frame_unsent _ e) (notIn rfl) (notIn rfl)
    · exact hs

theorem probeSendStart_tapsOk {s u : State} (hs : s.tapsOk) {t : TapId} (h : exec (.probeSendStart t) s = .next u) :
    u.tapsOk := by
  refine keeps_powered (P := State.tapsOk) h hs ?_
  split
  · next hc =>
    exact hs.updTap fun ⟨hlen, hheads, hqueue, hframes, _, hcounts⟩ =>
      ⟨hlen, hheads, hqueue, hframes, fun hl => absurd (hc.1.symm.trans hl) (by simp), hcounts⟩
  · exact hs

theorem restartEngine_state_tapsOk {s : State} (hs : s.tapsOk) (hold : Bool) : (s.restartEngine hold).tapsOk := by
  have restarted : s.restart.tapsOk := ⟨TapRec.restart_ok hs.1, TapRec.restart_ok hs.2.1, fun _ h => by cases h⟩
  unfold State.restartEngine
  split
  · exact restarted
  · exact tapsOk_of_frame restarted (frame_becomeRunning _) (notIn rfl) (notIn rfl)

theorem restartEngine_tapsOk {s u : State} (hs : s.tapsOk) {cp : CtlPort} {hold : Byte} (h : exec (.restartEngine cp hold) s = .next u) :
    u.tapsOk := by
  refine keeps_command (P := State.tapsOk) h hs (fun _ => hs) ?_
  split
  · next b _ =>
    have restarted := restartEngine_state_tapsOk hs b
    exact restarted
  · exact hs

/-- Every command keeps the taps in order, and with them the frame under analysis. -/
theorem exec_tapsOk {c : Instr} {s u : State} (hs : s.tapsOk) (h : exec c s = .next u) : u.tapsOk := by
  have reset : TapRec.reset.ok :=
    ⟨Nat.zero_le _, nofun, Nat.zero_le _, nofun, fun _ => ⟨rfl, rfl, rfl⟩, Nat.zero_le _, Nat.zero_le _⟩
  have fresh {t : State} (ht : t.taps = ⟨.reset, .reset⟩) (hw : t.analysing = none) : t.tapsOk := by
    rw [State.tapsOk, ht, hw]
    exact ⟨reset, reset, by simp⟩
  by_cases hw : Part.taps ∈ writes c ∨ Part.analysing ∈ writes c
  · cases c with
    | resetAssert => exact Host.Outcome.next.inj h ▸ fresh rfl rfl
    | resetRelease =>
      obtain rfl := Host.Outcome.next.inj h
      split
      · exact fresh rfl rfl
      · exact hs
    | tapLinkUp t => exact tapLinkUp_tapsOk hs h
    | tapLinkDown t => exact tapLinkDown_tapsOk hs h
    | tapFrame t f order => exact tapFrame_tapsOk hs h
    | analysisTake => exact analysisTake_tapsOk hs h
    | queuedEntryLife => exact queuedEntryLife_tapsOk hs h
    | servingAttempt t =>
      refine keeps_powered (P := State.tapsOk) h hs ?_
      split
      · exact attempt_tapsOk hs _
      · exact hs
    | probeSendStart t => exact probeSendStart_tapsOk hs h
    | probeDeparture t => exact probeDeparture_tapsOk hs h
    | restartEngine cp hold => exact restartEngine_tapsOk hs h
    | _ => exact hw.elim (absurd · (notIn rfl)) (absurd · (notIn rfl))
  · rw [not_or] at hw
    exact tapsOk_of_frame hs (exec_frame h) hw.1 hw.2

/-! ### The fingerprint table (R99) -/

theorem seenBit_get (p : Port) : (seenBit p).getLsbD p.val = true := by
  simp [seenBit]

/-- A match keeps an entry in order: one more hit, up to 15, and one more port seen (R103, R104). -/
theorem FpEntry.matched_ok {e : FpEntry} (h : e.ok) (q : Port) (arrival : MsTime) : (e.matched q arrival).ok := by
  obtain ⟨hlo, hhi, hseen⟩ := h
  refine ⟨?_, Nat.min_le_right _ _, ?_⟩
  · simp only [FpEntry.matched]
    omega
  · have : e.seen.getLsbD e.first.val = true := hseen
    simp [FpEntry.hasSeen, FpEntry.matched, this]

/-- The places of a table in order hold entries in order. -/
theorem placeGet_mem {t : List (Nat × FpEntry)} {k : Nat} {e : FpEntry} (h : placeGet t k = some e) : (k, e) ∈ t := by
  induction t with
  | nil => cases h
  | cons x xs ih =>
    obtain ⟨j, y⟩ := x
    simp only [placeGet] at h
    split at h
    · next hj =>
      obtain rfl := Option.some.inj h
      exact hj ▸ List.mem_cons_self
    · exact List.mem_cons_of_mem _ (ih h)

theorem tableOk_put {s : State} (h : s.tableOk) {k : Nat} (hk : k < Config.tablePlaces) {e : FpEntry} (he : e.ok) :
    State.tableOk { s with table := placePut s.table k e } := by
  refine ⟨tableWf_put h.1 hk e, fun x hx => ?_⟩
  rcases mem_placePut hx with rfl | hx
  · exact he
  · exact h.2 x hx

theorem tableOk_filter {s : State} (h : s.tableOk) (keep : Nat × FpEntry → Bool) :
    State.tableOk { s with table := s.table.filter keep } :=
  ⟨tableWf_filter h.1 keep, fun x hx => h.2 x (List.mem_of_mem_filter hx)⟩

theorem tableOk_of_frame {W : List Part} {s t : State} (hs : s.tableOk) (h : Frame W s t) (hW : .table ∉ W) : t.tableOk := by
  have ht : t.table = s.table := (h .table hW).1
  rw [State.tableOk, ht]
  exact hs

set_option Elab.async false in
theorem fpSet_lt (fp : BitVec 32) : fpSet fp < 256 := Nat.mod_lt _ (by decide)

/-- The entry matched stands in its set (R102). -/
theorem liveMatch_some {s : State} {set place : Nat} {tag : BitVec 24} {e : FpEntry}
    (h : s.liveMatch set tag = some (place, e)) :
    place ∈ setPlaces set ∧ placeGet s.table place = some e ∧ s.live e = true ∧ e.tag = tag := by
  obtain ⟨k, hk, hf⟩ := List.exists_of_findSome?_eq_some h
  cases hg : placeGet s.table k with
  | none => simp [hg] at hf
  | some x =>
    simp only [hg] at hf
    split at hf
    · next hc =>
      obtain ⟨rfl, rfl⟩ := Prod.mk.inj (Option.some.inj hf)
      simp only [Bool.and_eq_true, decide_eq_true_eq] at hc
      exact ⟨hk, hg, hc.1, hc.2⟩
    · cases hf

theorem oldestPlace_mem (s : State) (set : Nat) : s.oldestPlace set ∈ setPlaces set := by
  refine List.foldlRecOn (motive := (· ∈ setPlaces set)) _ _ (by simp [setPlaces]) fun best hb place hp => ?_
  split
  · exact hp
  · exact hb

/-- The place of a new entry stands in its set (R102). -/
theorem newPlace_mem (s : State) (set : Nat) : (s.newPlace set).1 ∈ setPlaces set := by
  unfold State.newPlace
  split
  · next place h => exact List.mem_of_find?_eq_some h
  · exact oldestPlace_mem s set

theorem echoEnter_tableOk {s : State} (h : s.tableOk) (x : Slot) : (s.echoEnter x).tableOk := by
  unfold State.echoEnter
  dsimp only
  split
  · next place e hm =>
    obtain ⟨hplace, hget, -, -⟩ := liveMatch_some hm
    have hput := tableOk_put h (setPlaces_lt (fpSet_lt _) hplace)
      (FpEntry.matched_ok (h.2 _ (placeGet_mem hget)) x.ingress x.arrival)
    have evidence {t : State} (ht : t.tableOk) (p : Port) (r : Option Port) : (t.evidence p r).tableOk :=
      tableOk_of_frame ht (frame_evidence t p r) (notIn rfl)
    split
    · split
      · exact evidence hput _ _
      · exact hput
    · exact evidence (evidence hput _ _) _ _
  · have hput := tableOk_put h (setPlaces_lt (fpSet_lt (fingerprint x.head)) (newPlace_mem s _))
      (e := ⟨fpTag (fingerprint x.head), x.ingress, x.arrival, x.arrival, 1, seenBit x.ingress⟩)
      ⟨le_refl 1, Nat.le_of_ble_eq_true rfl, seenBit_get x.ingress⟩
    split
    · exact hput
    · exact hput

theorem conclude_tableOk {s : State} (h : s.tableOk) (w : Working) : (s.conclude w).tableOk := by
  unfold State.conclude
  split
  · exact echoEnter_tableOk h _
  · exact echoEnter_tableOk (s := s.census .malformedProbe (some w.slot.ingress) 1) h _
  · unfold State.foreignProbe
    dsimp only
    split <;> exact h
  · exact h
  · exact h

theorem writeField_tableOk {s t : State} (hs : s.tableOk) {f : FieldId} {v : Nat} (h : s.writeField f v = some t) :
    t.tableOk := by
  cases f with
  | window i part =>
    rw [State.writeField_window] at h
    obtain ⟨w, -, rfl⟩ := Option.map_eq_some_iff.mp h
    exact hs
  | we => exact Option.some.inj h ▸ tableOk_filter hs _
  | cp1Attached => exact Option.some.inj h ▸ tableOk_of_frame hs (frame_setAttached s _) (notIn rfl)
  | _ => exact Option.some.inj h ▸ hs

theorem writeRun_tableOk {s : State} (hs : s.tableOk) (vs : List (FieldId × Nat)) : (s.writeRun vs).1.tableOk := by
  induction vs generalizing s with
  | nil => exact hs
  | cons x rest ih =>
    obtain ⟨f, v⟩ := x
    unfold State.writeRun
    split
    · exact hs
    · next t h => exact ih (writeField_tableOk hs h)

/-- Every command keeps the table in its canonical form and its entries in order (R99). -/
theorem exec_tableOk {c : Instr} {s u : State} (hs : s.tableOk) (h : exec c s = .next u) : u.tableOk := by
  have empty {t : State} (ht : t.table = []) : t.tableOk := by simp [State.tableOk, ht, tableWf]
  by_cases hw : Part.table ∈ writes c
  · cases c with
    | resetAssert => exact Host.Outcome.next.inj h ▸ empty rfl
    | resetRelease =>
      obtain rfl := Host.Outcome.next.inj h
      split
      · exact empty rfl
      · exact hs
    | analysisTake =>
      refine keeps_powered (P := State.tableOk) h hs ?_
      split
      · exact tableOk_of_frame hs (frame_takeFrame s) (notIn rfl)
      · next w _ => exact conclude_tableOk (s := { s with analysing := none }) hs w
    | msTick order =>
      refine keeps_powered (P := State.tableOk) h hs ?_
      have begun : (if s.tickBegun then { s with tickBegun := false } else s.beginTick).tableOk := by
        split
        · exact hs
        · exact tableOk_of_frame hs (frame_beginTick s) (notIn rfl)
      dsimp only
      split
      · exact tableOk_filter (tableOk_of_frame begun (frame_drain _ order) (notIn rfl)) _
      · exact begun
    | writeProfile cp start count values =>
      rcases writeProfile_cases h with rfl | ⟨st, rfl⟩ | ⟨vs, st, -, -, -, rfl⟩
      · exact hs
      · exact hs
      · exact writeRun_tableOk hs vs
    | restartEngine cp hold =>
      refine keeps_command (P := State.tableOk) h hs (fun _ => hs) ?_
      split
      · unfold State.restartEngine
        split <;> exact empty rfl
      · exact hs
    | _ => exact (notIn rfl hw).elim
  · exact tableOk_of_frame hs (exec_frame h) hw

/-! ### The other counts (R48, R153, R165) -/

/-- Every counter within its width. -/
def CountersOk (v : Vector Counter 4) : Prop := ∀ i : Fin 4, v[i].count ≤ 4294967295

theorem Counter.hit_count {c : Counter} (h : c.count ≤ 4294967295) (k : CensusKind) (p : Option Port) (n : Nat) :
    (c.hit k p n).count ≤ 4294967295 := by
  unfold Counter.hit
  split
  · exact Nat.min_le_right _ _
  · exact h

theorem CountersOk.census {s : State} (h : CountersOk s.counters) (k : CensusKind) (p : Option Port) (n : Nat) :
    CountersOk (s.census k p n).counters := fun i => by
  rw [State.census_counter]
  exact Counter.hit_count (h i) k p n

theorem CountersOk.of_frame {W : List Part} {s t : State} (hs : CountersOk s.counters) (h : Frame W s t)
    (hW : .counters ∉ W) : CountersOk t.counters := by
  rw [show t.counters = s.counters from h .counters hW]
  exact hs

theorem echoEnter_countersOk {s : State} (h : CountersOk s.counters) (x : Slot) : CountersOk (s.echoEnter x).counters := by
  have evidence {t : State} (ht : CountersOk t.counters) (p : Port) (r : Option Port) :
      CountersOk (t.evidence p r).counters := ht.of_frame (frame_evidence t p r) (notIn rfl)
  have put (t) : CountersOk (State.counters { s with table := t }) := h
  unfold State.echoEnter
  dsimp only
  split
  · split
    · split
      · exact (evidence (put _) _ _).census _ _ _
      · exact h
    · exact (evidence (evidence (put _) _ _) _ _).census _ _ _
  · split
    · exact (put _).census _ _ _
    · exact h

theorem conclude_countersOk {s : State} (h : CountersOk s.counters) (w : Working) : CountersOk (s.conclude w).counters := by
  unfold State.conclude
  split
  · exact echoEnter_countersOk h _
  · exact echoEnter_countersOk (h.census _ _ _) _
  · unfold State.foreignProbe
    dsimp only
    split <;> exact h.census _ _ _
  · exact h.census _ _ _
  · exact h.census _ _ _

theorem accept_countersOk {s : State} (h : CountersOk s.counters) (t : TapId) (f : TapFrame) (order : MeterOrder) (p : Port) :
    CountersOk (s.accept t f order p).counters := by
  have counted := (h.census .floodFrames (some p) 1).census .floodUnits (some p) (weight (f.length - 4))
  have metered := counted.of_frame (frame_arrival _ order p (weight (f.length - 4))) (notIn rfl)
  unfold State.accept
  dsimp only
  split
  · unfold State.offer
    split
    · exact metered
    · exact metered.census _ _ _
  · exact counted

theorem attempt_countersOk {s : State} (h : CountersOk s.counters) (t : TapId) : CountersOk (s.attempt t).counters := by
  unfold State.attempt
  split
  · exact h
  · exact h.of_frame (frame_serve s t _) (notIn rfl)
  · exact CountersOk.census (s := s.updTap t _) h _ _ _

theorem departed_countersOk {s : State} (h : CountersOk s.counters) (q : TxProbe) : CountersOk (s.departed q).counters := by
  unfold State.departed
  split
  · exact h
  · exact CountersOk.census (s := { s with probes := _ }) h _ _ _

/-- The closings of a transaction counted one after another (R147). -/
def State.countClosings (s : State) (closed : List Port) : State :=
  closed.foldl (fun s p => s.census .gateClosings (some p) 1) s

theorem frame_countClosings (s : State) (closed : List Port) : Frame [.counters] s (s.countClosings closed) :=
  Frame.foldl (fun s p => frame_census s .gateClosings (some p) 1) closed s

theorem CountersOk.countClosings {s : State} (h : CountersOk s.counters) (closed : List Port) :
    CountersOk (s.countClosings closed).counters := by
  unfold State.countClosings
  induction closed generalizing s with
  | nil => exact h
  | cons p ps ih => exact ih (h.census _ _ _)

/-- The state after a completed transaction (R146, R147, R151). -/
def State.completed (s : State) (l : TapId) (samples : List (Option Port × GateCode)) : State :=
  { (s.deliver samples).countClosings (s.closings samples) with
    epoch := if s.closings samples = [] then s.epoch else s.epoch + 1
    polls := s.polls.set l ⟨.idle, some s.profile.tsil, false, 0⟩ }

set_option Elab.async false in
/-- What a completion can do: nothing where nothing is being read, or the delivery of what was sampled. -/
theorem pollComplete_eq {s : State} (l : TapId) (hOn : On s) : exec (.pollComplete l) s = .next (
    match (s.polls.get l).phase with
    | .read samples => s.completed l samples
    | _ => s) := by
  have hpolls (samples) : ((s.deliver samples).countClosings (s.closings samples)).polls = s.polls :=
    (frame_countClosings _ _ .polls (notIn rfl)).trans (frame_deliver s samples .polls (notIn rfl))
  change execPollComplete l s = _
  rw [execPollComplete, powered_next hOn]
  cases (s.polls.get l).phase with
  | read samples =>
    simp only [State.completed, ← hpolls samples]
    rfl
  | idle => rfl
  | write => rfl

theorem pollComplete_cases {s u : State} {l : TapId} (h : exec (.pollComplete l) s = .next u) :
    u = s ∨ ∃ samples, (s.polls.get l).phase = .read samples ∧ u = s.completed l samples := by
  cases hOn : s.resetLow with
  | true => exact .inl (Host.Outcome.next.inj (h.symm.trans (powered_low hOn _)))
  | false =>
    rw [pollComplete_eq l hOn] at h
    have hu := Host.Outcome.next.inj h
    cases hphase : (s.polls.get l).phase with
    | read samples => exact .inr ⟨samples, rfl, by rw [← hu, hphase]⟩
    | idle => exact .inl (by rw [← hu, hphase])
    | write => exact .inl (by rw [← hu, hphase])

/-- What the end of a write phase can do: nothing outside one, or the read phase of what the judged bits leave. -/
theorem pollWriteEnd_cases {s u : State} {l : TapId} {links : BitVec 32} {check : BitVec 4}
    (h : exec (.pollWriteEnd l links check) s = .next u) : u = s ∨ ((s.polls.get l).phase = .write
      ∧ u = (s.judgeWrite l links check).updPoll l fun x =>
          { x with phase := .read ((s.judgeWrite l links check).samples l) }) := by
  rcases powered_cases h with ⟨hOn, hu⟩ | ⟨-, hu⟩
  · cases hphase : (s.polls.get l).phase with
    | write => exact .inr ⟨rfl, Host.Outcome.next.inj (h.symm.trans (exec_pollWriteEnd_of_write links check hOn hphase))⟩
    | idle => exact .inl (by rw [hu, hphase])
    | read samples => exact .inl (by rw [hu, hphase])
  · exact .inl hu

/-- A judged write phase changes ports, requests, attempts and counters alone (R7, R144). -/
theorem frame_judgeWrite (s : State) (l : TapId) (links : BitVec 32) (check : BitVec 4) :
    Frame [.ports, .gateReqs, .attempts, .counters] s (s.judgeWrite l links check) :=
  .ite (frame_note ((frame_placeLinks s l _).mono (allIn rfl)) (isIn rfl) s) ((frame_census s _ _ _).mono (allIn rfl))

theorem judgeWrite_countersOk {s : State} (hs : CountersOk s.counters) (l : TapId) (links : BitVec 32) (check : BitVec 4) :
    CountersOk (s.judgeWrite l links check).counters := by
  have placed := frame_note (W := [.ports, .gateReqs, .attempts]) ((frame_placeLinks s l (writeLinks links)).mono (allIn rfl))
    (isIn rfl) s
  unfold State.judgeWrite
  split
  · exact hs.of_frame placed (notIn rfl)
  · exact hs.census _ _ _

theorem reset_countersOk (unit : BitVec 40) : CountersOk (State.powerOn unit).counters := by
  have h : ∀ i : Fin 4, (State.powerOn 0).counters[i].count ≤ 4294967295 := by decide
  exact h

/-- Every command keeps the counters within their widths (R165). -/
theorem exec_countersOk {c : Instr} {s u : State} (hs : CountersOk s.counters) (h : exec c s = .next u) :
    CountersOk u.counters := by
  by_cases hw : Part.counters ∈ writes c
  · cases c with
    | resetAssert =>
      obtain rfl := Host.Outcome.next.inj h
      exact reset_countersOk s.unitNumber
    | resetRelease =>
      obtain rfl := Host.Outcome.next.inj h
      split
      · exact reset_countersOk s.unitNumber
      · exact hs
    | tapFrame t f order =>
      refine keeps_powered (P := fun s => CountersOk s.counters) h hs ?_
      split
      · split
        · exact hs.census _ _ _
        · exact hs.census _ _ _
        · exact hs
        · exact hs
        · exact accept_countersOk hs t f order _
      · exact hs
    | analysisTake =>
      refine keeps_powered (P := fun s => CountersOk s.counters) h hs ?_
      split
      · exact hs.of_frame (frame_takeFrame s) (notIn rfl)
      · next w _ =>
        refine conclude_countersOk ?_ w
        exact hs
    | servingAttempt t =>
      refine keeps_powered (P := fun s => CountersOk s.counters) h hs ?_
      split
      · exact attempt_countersOk hs _
      · exact hs
    | probeDeparture t =>
      refine keeps_powered (P := fun s => CountersOk s.counters) h hs ?_
      split
      · exact hs
      · unfold State.orphanDeparted
        split
        · exact hs
        · refine CountersOk.census ?_ _ _ _
          exact hs
      · split
        · exact hs
        · refine departed_countersOk ?_ _
          exact hs
    | pollWriteEnd l links check =>
      rcases pollWriteEnd_cases h with rfl | ⟨-, rfl⟩
      · exact hs
      · exact judgeWrite_countersOk hs l links check
    | pollComplete l =>
      rcases pollComplete_cases h with rfl | ⟨samples, -, rfl⟩
      · exact hs
      · exact (hs.of_frame (frame_deliver s samples) (notIn rfl)).countClosings _
    | selectCounter cp counter kind filter =>
      refine keeps_command (P := fun s => CountersOk s.counters) h hs (fun _ => hs) ?_
      split
      · intro i
        simp only [State.answer_counters, getElem_set_fin]
        split
        · exact Nat.zero_le _
        · exact hs i
      · exact hs
    | _ => exact (notIn rfl hw).elim
  · exact hs.of_frame (exec_frame h) hw

theorem classUpdate_level (s : State) : s.classUpdate.classLevel = s.classLevel := by
  unfold State.classUpdate
  split
  · exact ((frame_classChoose s) .meter (notIn rfl)).1
  · rfl

/-- What a class arrival makes of the class level (R48, R50). -/
theorem classArrival_level (s : State) (p : Port) (w : Nat) : (s.classArrival p w).classLevel =
    if (s.port p).mode = .pinned then s.classLevel else min (s.classLevel + w) Config.classMax := by
  unfold State.classArrival
  split
  · rfl
  · exact classUpdate_level _

theorem arrival_level {s : State} (h : s.classLevel ≤ 1048575) (order : MeterOrder) (p : Port) (w : Nat) :
    (s.arrival order p w).classLevel ≤ 1048575 := by
  have arrived (t : State) (ht : t.classLevel ≤ 1048575) : (t.classArrival p w).classLevel ≤ 1048575 := by
    rw [classArrival_level]
    split
    · exact ht
    · exact Nat.min_le_right _ _
  cases order with
  | portsFirst => exact arrived (s.portArrival p w) h
  | classFirst => exact arrived s h

theorem accept_level {s : State} (h : s.classLevel ≤ 1048575) (t : TapId) (f : TapFrame) (order : MeterOrder) (p : Port) :
    (s.accept t f order p).classLevel ≤ 1048575 := by
  have counted : ((s.census .floodFrames (some p) 1).census .floodUnits (some p) (weight (f.length - 4))).classLevel
      ≤ 1048575 := h
  unfold State.accept
  dsimp only
  split
  · rw [((frame_offer _ t f _) .meter (notIn rfl)).1]
    exact arrival_level counted order _ _
  · exact counted

theorem drain_level (s : State) (order : MeterOrder) : (s.drain order).classLevel = s.classLevel - s.profile.dc := by
  cases order with
  | portsFirst =>
    have drained := frame_drainPorts s
    rw [State.drain, State.drainClass, classUpdate_level]
    dsimp only
    rw [(drained .meter (notIn rfl)).1, show s.drainPorts.profile = s.profile from drained .profile (notIn rfl)]
  | classFirst =>
    have drained := frame_drainPorts s.drainClass
    rw [State.drain, (drained .meter (notIn rfl)).1, State.drainClass, classUpdate_level]

theorem classExpiry_level (s : State) : s.classExpiry.classLevel = s.classLevel := by
  rcases classExpiry_cases s with ⟨-, h⟩ | ⟨-, -, -, h⟩ | ⟨-, -, -, h⟩ <;> rw [h]
  exact ((frame_classChoose s) .meter (notIn rfl)).1

/-- Every command keeps the class level within its width (R48). -/
theorem exec_classLevel {c : Instr} {s u : State} (hs : s.classLevel ≤ 1048575) (h : exec c s = .next u) :
    u.classLevel ≤ 1048575 := by
  by_cases hw : Part.meter ∈ writes c
  · cases c with
    | resetAssert => exact Host.Outcome.next.inj h ▸ Nat.zero_le _
    | resetRelease =>
      obtain rfl := Host.Outcome.next.inj h
      split
      · exact Nat.zero_le _
      · exact hs
    | tapFrame t f order =>
      refine keeps_powered (P := fun s => s.classLevel ≤ 1048575) h hs ?_
      split
      · split
        · exact hs
        · exact hs
        · exact hs
        · exact hs
        · exact accept_level hs t f order _
      · exact hs
    | msTick order =>
      refine keeps_powered (P := fun s => s.classLevel ≤ 1048575) h hs ?_
      have begun : (if s.tickBegun then { s with tickBegun := false } else s.beginTick).classLevel ≤ 1048575 := by
        split
        · exact hs
        · rwa [State.beginTick_classLevel]
      dsimp only
      split
      · exact (drain_level _ order).trans_le ((Nat.sub_le _ _).trans begun)
      · exact begun
    | classIntervalExpiry order =>
      refine keeps_powered (P := fun s => s.classLevel ≤ 1048575) h hs ?_
      cases order with
      | drainFirst => exact (classExpiry_level s).trans_le hs
      | expiryFirst =>
        dsimp only
        split
        · exact (classExpiry_level _).trans_le ((State.beginTick_classLevel s).trans_le hs)
        · exact hs
    | restartEngine cp hold =>
      refine keeps_command (P := fun s => s.classLevel ≤ 1048575) h hs (fun _ => hs) ?_
      split
      · unfold State.restartEngine
        split <;> exact Nat.zero_le _
      · exact hs
    | _ => exact (notIn rfl hw).elim
  · exact ((exec_frame h) .meter hw).1.trans_le hs

/-- The ages of both poll lines within their widths (R153). -/
def AgesOk (x : PerTap PollRec) : Prop := ∀ l, (x.get l).age ≤ 65535

theorem agesOk_iff (x : PerTap PollRec) : AgesOk x ↔ x.a.age ≤ 65535 ∧ x.b.age ≤ 65535 :=
  ⟨fun h => ⟨h .a, h .b⟩, fun h l => by cases l <;> [exact h.1; exact h.2]⟩

theorem AgesOk.updPoll {s : State} (h : AgesOk s.polls) {l : TapId} {f : PollRec → PollRec}
    (hf : (f (s.polls.get l)).age ≤ 65535) : AgesOk (s.updPoll l f).polls := fun k => by
  rw [State.updPoll_polls]
  by_cases hk : k = l
  · rw [hk, PerTap.get_set_self]
    exact hf
  · rw [PerTap.get_set_of_ne _ hk]
    exact h k

theorem beginTick_agesOk {s : State} : AgesOk s.beginTick.polls := by
  unfold State.beginTick
  split <;> exact (agesOk_iff _).mpr ⟨Nat.min_le_right _ _, Nat.min_le_right _ _⟩

theorem AgesOk.of_frame {W : List Part} {s t : State} (hs : AgesOk s.polls) (h : Frame W s t) (hW : .polls ∉ W) :
    AgesOk t.polls := by
  rw [show t.polls = s.polls from h .polls hW]
  exact hs

/-- Every command keeps the ages of the poll lines within their widths (R153). -/
theorem exec_agesOk {c : Instr} {s u : State} (hs : AgesOk s.polls) (h : exec c s = .next u) : AgesOk u.polls := by
  have fresh : AgesOk ⟨PollRec.reset, PollRec.reset⟩ := (agesOk_iff _).mpr ⟨le_refl _, le_refl _⟩
  by_cases hw : Part.polls ∈ writes c
  · cases c with
    | resetAssert => exact Host.Outcome.next.inj h ▸ fresh
    | resetRelease =>
      obtain rfl := Host.Outcome.next.inj h
      split
      · exact fresh
      · exact hs
    | msTick order =>
      refine keeps_powered (P := fun s => AgesOk s.polls) h hs ?_
      have begun : AgesOk (if s.tickBegun then { s with tickBegun := false } else s.beginTick).polls := by
        split
        · exact hs
        · exact beginTick_agesOk
      dsimp only
      split
      · exact (begun.of_frame (frame_drain _ order) (notIn rfl)).of_frame (frame_sweepVisit _) (notIn rfl)
      · exact begun
    | classIntervalExpiry order =>
      refine keeps_powered (P := fun s => AgesOk s.polls) h hs ?_
      cases order with
      | drainFirst => exact hs.of_frame (frame_classExpiry s) (notIn rfl)
      | expiryFirst =>
        dsimp only
        split
        · exact AgesOk.of_frame (s := { s.beginTick with tickBegun := true }) beginTick_agesOk (frame_classExpiry _) (notIn rfl)
        · exact hs
    | pollStart l => exact keeps_powered (P := fun s => AgesOk s.polls) h hs (hs.updPoll (l := l) (f := fun x => { x with phase := .write }) (hs l))
    | pollStop l => exact keeps_powered (P := fun s => AgesOk s.polls) h hs (hs.updPoll (l := l) (f := fun x => { x with phase := .idle }) (hs l))
    | silenceExpiry l =>
      refine keeps_powered (P := fun s => AgesOk s.polls) h hs ?_
      split
      · exact hs.updPoll (f := fun x => { x with silence := none, silent := true }) (hs l)
      · exact hs
    | pollWriteEnd l links check =>
      rcases pollWriteEnd_cases h with rfl | ⟨-, rfl⟩
      · exact hs
      · have judged : AgesOk (s.judgeWrite l links check).polls := hs.of_frame (frame_judgeWrite s l links check) (notIn rfl)
        exact judged.updPoll (judged l)
    | pollComplete l =>
      rcases pollComplete_cases h with rfl | ⟨samples, -, rfl⟩
      · exact hs
      · exact hs.updPoll (l := l) (f := fun _ => ⟨.idle, some s.profile.tsil, false, 0⟩) (Nat.zero_le _)
    | _ => exact (notIn rfl hw).elim
  · exact hs.of_frame (exec_frame h) hw

set_option Elab.async false in
/-- Every command keeps the counts within their widths (R48, R153, R165). -/
theorem exec_countsOk {c : Instr} {s u : State} (hs : s.countsOk) (h : exec c s = .next u) : u.countsOk := by
  obtain ⟨hlevel, hcounters, hages⟩ := hs
  exact ⟨exec_classLevel hlevel h, exec_countersOk hcounters h, (agesOk_iff _).mp (exec_agesOk ((agesOk_iff _).mpr hages) h)⟩

end Sys2Proof.Machine
end

section
/-! PROOF. Nothing of a HELD engine waits to act, over every command (R36, R56, R77, R116, R141). -/

namespace Sys2Proof.Machine

open Sys2Proof.Spec

/-! ### What a HELD engine leaves -/

/-- The engine has left nothing in a port record (R141). -/
def PortRec.quiet (r : PortRec) : Prop := r.level = 0 ∧ r.calm = true ∧ r.echoScore = 0 ∧ r.penalty = 0

/-- The engine has left nothing in a tap (R26, R31, R77). -/
def TapRec.quiet (x : TapRec) : Prop := x.fifo = [] ∧ x.queue = [] ∧ x.attempts = 0

/-- The engine has left nothing outside port records and taps (R56, R77, R141). -/
def State.idle (s : State) : Prop :=
  s.classLevel = 0 ∧ s.classTimer = none ∧ s.slotTimer = none ∧ s.decayTimer = none ∧ s.slotIndex = 0 ∧ s.sweep = 0
    ∧ s.probes = [] ∧ s.table = [] ∧ s.gateReqs = [] ∧ s.urgent = [] ∧ s.analysing = none

/-- The engine has left nothing. -/
structure State.Quiet (s : State) : Prop where
  ports : ∀ p : Port, s.ports[p].quiet
  taps : ∀ t, (s.taps.get t).quiet
  rest : s.idle

theorem quiet_iff (s : State) : s.heldOk ↔ (s.running = false → s.Quiet) := by
  refine imp_congr_right fun _ => ⟨?_, ?_⟩
  · rintro ⟨hports, hlevel, hclass, hslot, hdecay, hindex, hsweep, hprobes, htable, hreqs, hurgent, hfa, hfb, hqa, hqb, haa, hab,
      hw⟩
    refine ⟨hports, fun t => ?_, hlevel, hclass, hslot, hdecay, hindex, hsweep, hprobes, htable, hreqs, hurgent, hw⟩
    cases t
    · exact ⟨hfa, hqa, haa⟩
    · exact ⟨hfb, hqb, hab⟩
  · rintro ⟨hports, htaps, hlevel, hclass, hslot, hdecay, hindex, hsweep, hprobes, htable, hreqs, hurgent, hw⟩
    obtain ⟨hfa, hqa, haa⟩ := htaps .a
    obtain ⟨hfb, hqb, hab⟩ := htaps .b
    exact ⟨hports, hlevel, hclass, hslot, hdecay, hindex, hsweep, hprobes, htable, hreqs, hurgent, hfa, hfb, hqa, hqb, haa, hab, hw⟩

theorem TapRec.quiet_reset : TapRec.reset.quiet := ⟨rfl, rfl, rfl⟩

theorem TapRec.quiet_restart (x : TapRec) : x.restart.quiet := ⟨rfl, rfl, rfl⟩

/-! ### What keeps a HELD engine quiet -/

/-- The parts that `State.idle` speaks of. -/
abbrev idleParts : List Part := [.meter, .slots, .decay, .probes, .table, .gateReqs, .urgent, .analysing]

theorem idle_of_frame {W : List Part} {s t : State} (hs : s.idle) (h : Frame W s t) (hW : ∀ P ∈ idleParts, P ∉ W) : t.idle := by
  obtain ⟨hlevel, hclass, hslot, hdecay, hindex, hsweep, hprobes, htable, hreqs, hurgent, hw⟩ := hs
  obtain ⟨elevel, eclass⟩ := h .meter (hW _ (isIn rfl))
  obtain ⟨eslot, eindex⟩ := h .slots (hW _ (isIn rfl))
  obtain ⟨etable, esweep⟩ := h .table (hW _ (isIn rfl))
  have edecay := h .decay (hW _ (isIn rfl))
  have eprobes := h .probes (hW _ (isIn rfl))
  have ereqs := h .gateReqs (hW _ (isIn rfl))
  have eurgent := h .urgent (hW _ (isIn rfl))
  have ew := h .analysing (hW _ (isIn rfl))
  exact ⟨elevel.trans hlevel, eclass.trans hclass, eslot.trans hslot, Eq.trans edecay hdecay, eindex.trans hindex,
    esweep.trans hsweep, Eq.trans eprobes hprobes, etable.trans htable, Eq.trans ereqs hreqs, Eq.trans eurgent hurgent,
    Eq.trans ew hw⟩

theorem tapsQuiet_of_frame {W : List Part} {s t : State} (hs : ∀ k, (s.taps.get k).quiet) (h : Frame W s t)
    (htaps : .taps ∉ W) (hattempts : .attempts ∉ W) (k : TapId) : (t.taps.get k).quiet := by
  obtain ⟨ha, hb, -⟩ := h .taps htaps
  obtain ⟨na, nb⟩ := h .attempts hattempts
  obtain ⟨hfifo, hqueue, hn⟩ := hs k
  cases k with
  | a => exact ⟨(congrArg TapRec.fifo ha).trans hfifo, (congrArg TapRec.queue ha).trans hqueue, na.trans hn⟩
  | b => exact ⟨(congrArg TapRec.fifo hb).trans hfifo, (congrArg TapRec.queue hb).trans hqueue, nb.trans hn⟩

theorem portsQuiet_of_frame {W : List Part} {s t : State} (hs : ∀ p : Port, s.ports[p].quiet) (h : Frame W s t)
    (hports : .ports ∉ W) (p : Port) : t.ports[p].quiet := by
  rw [show t.ports = s.ports from h .ports hports]
  exact hs p

/-- A change of nothing that the engine leaves. -/
theorem State.Quiet.of_frame {W : List Part} {s t : State} (hs : s.Quiet) (h : Frame W s t)
    (hW : ∀ P ∈ .ports :: .taps :: .attempts :: idleParts, P ∉ W) : t.Quiet :=
  ⟨portsQuiet_of_frame hs.ports h (hW _ (isIn rfl)), tapsQuiet_of_frame hs.taps h (hW _ (isIn rfl)) (hW _ (isIn rfl)),
    idle_of_frame hs.rest h fun P hP => hW P (List.mem_cons_of_mem _ (List.mem_cons_of_mem _ (List.mem_cons_of_mem _ hP)))⟩

/-- A change of one tap that leaves nothing in it. -/
theorem State.Quiet.updTap {s : State} (hs : s.Quiet) {t : TapId} {f : TapRec → TapRec} (hf : (f (s.taps.get t)).quiet) :
    (s.updTap t f).Quiet := by
  refine ⟨hs.ports, fun k => ?_, hs.rest⟩
  rw [State.updTap_taps]
  by_cases hk : k = t
  · rw [hk, PerTap.get_set_self]
    exact hf
  · rw [PerTap.get_set_of_ne _ hk]
    exact hs.taps k

/-- A HELD engine has no serving attempt made for it (R63). -/
theorem noteAttempts_held {before after : State} (hb : before.running = false) (ha : after.running = false) :
    noteAttempts before after = after := by
  rw [noteAttempts_eq, newAttempts_held hb ha, newAttempts_held hb ha]
  rfl

set_option Elab.async false in
theorem takeRequest_held {s : State} (hr : s.running = false) (want : GateReq → Bool) (turn : Nat)
    (act : State → GateReqKind → State) : s.takeRequest want turn act = s := by simp [State.takeRequest, hr]

/-! ### Rows of the engine -/

/-- A row of the engine that has no effect while it is HELD (R117, R141). -/
def ofEngine : Instr → Bool
  | .slotExpiry | .decayExpiry | .probeRetireLife | .queuedEntryLife | .urgentRequest _ _ | .linkUp _ | .linkDown _
  | .watchCrossing _ | .downwardCrossing _ | .riseThroughR _ | .echoScoreChange _ | .causeTaken _ _ | .pinnedLoop _
  | .classNoCandidate | .listenCompletion _ | .listenTimeout _ | .releaseTimerExpiry _ | .goodStandingExpiry _
  | .holdExpiry _ => true
  | _ => false

theorem powered_id {s t u : State} (ht : t = s) (h : powered s t = .next u) : u = s := by
  rcases powered_cases h with ⟨-, rfl⟩ | ⟨-, rfl⟩
  · exact ht
  · rfl

theorem exec_ofEngine_held {c : Instr} {s u : State} (hc : ofEngine c = true) (hr : s.running = false)
    (h : exec c s = .next u) : u = s := by
  have idle {p : Prop} [Decidable p] (t : State) : (if s.running = true ∧ p then t else s) = s := by simp [hr]
  cases c with
  | slotExpiry => exact powered_id (idle _) h
  | decayExpiry => exact powered_id (idle _) h
  | probeRetireLife =>
    refine powered_id ?_ h
    split
    · rfl
    · exact idle _
  | queuedEntryLife =>
    refine powered_id ?_ h
    split
    · rfl
    · exact idle _
  | urgentRequest p confirm => exact powered_id (idle _) h
  | linkUp p => exact powered_id (takeRequest_held hr _ _ _) h
  | linkDown p => exact powered_id (takeRequest_held hr _ _ _) h
  | watchCrossing p => exact powered_id (takeRequest_held hr _ _ _) h
  | downwardCrossing p => exact powered_id (takeRequest_held hr _ _ _) h
  | riseThroughR p => exact powered_id (takeRequest_held hr _ _ _) h
  | echoScoreChange p => exact powered_id (takeRequest_held hr _ _ _) h
  | causeTaken p c => exact powered_id (takeRequest_held hr _ _ _) h
  | pinnedLoop l => exact powered_id (takeRequest_held hr _ _ _) h
  | classNoCandidate => exact powered_id (takeRequest_held hr _ _ _) h
  | listenCompletion p => exact powered_id (takeRequest_held hr _ _ _) h
  | listenTimeout p => exact powered_id (idle _) h
  | releaseTimerExpiry p => exact powered_id (idle _) h
  | goodStandingExpiry p => exact powered_id (idle _) h
  | holdExpiry p => exact powered_id (idle _) h
  | _ => cases hc

/-- A gate-changing command (R170). -/
def changesGates : Instr → Bool
  | .setModeHeld _ _ | .setModePinned _ _ | .setModeAuto _ _ _ | .release _ _ _ | .releaseAll _ _ => true
  | _ => false

/-- While the engine is HELD a gate-changing command is not carried out: it may be refused (R173). -/
theorem gateChecks_held {s run u : State} {cp : CtlPort} {closed badArg portClosed : Bool} (hr : s.running = false)
    (h : command cp s (gateChecks s cp closed badArg portClosed) run = .next u) : Frame [.cps] s u := by
  rcases command_cases h with ⟨-, rfl⟩ | ⟨st, -, rfl⟩ | ⟨hnone, -⟩
  · exact .refl _
  · exact frame_answer s cp st [] .fixed
  · exact absurd (firstFailure_none.mp hnone (!s.running, .busy) (by simp [gateChecks])) (by simp [hr])

theorem exec_changesGates_held {c : Instr} {s u : State} (hc : changesGates c = true) (hr : s.running = false)
    (h : exec c s = .next u) : Frame [.cps] s u := by
  cases c with
  | setModeHeld cp port => exact gateChecks_held hr h
  | setModePinned cp port => exact gateChecks_held hr h
  | setModeAuto cp port mode =>
    change execSetModeAuto cp port mode s = _ at h
    unfold execSetModeAuto at h
    split at h
    · obtain rfl := Host.Outcome.next.inj h
      exact .refl s
    · exact gateChecks_held hr h
  | release cp port forgive => exact gateChecks_held hr h
  | releaseAll cp forgive => exact gateChecks_held hr h
  | _ => cases hc

/-! ### The other rows that reach the engine -/

section
variable {s u : State} (hr : s.running = false) (hs : s.Quiet)
include hr hs

theorem tapLinkUp_quiet {t : TapId} (h : exec (.tapLinkUp t) s = .next u) : u.Quiet := by
  refine keeps_powered (P := State.Quiet) h hs ?_
  split
  · exact hs
  · rw [noteAttempts_held hr (by exact hr)]
    exact hs.updTap (f := fun x => { x with linkUp := true }) (hs.taps t)

omit hr in
theorem tapLinkDown_quiet {t : TapId} (h : exec (.tapLinkDown t) s = .next u) : u.Quiet := by
  refine keeps_powered (P := State.Quiet) h hs ?_
  split
  · obtain ⟨-, hqueue, hn⟩ := hs.taps t
    rw [hqueue]
    exact (hs.updTap (t := t) (f := TapRec.lost) ⟨rfl, rfl, hn⟩).of_frame (frame_raiseAttached _ .tapDown) (by simp)
  · exact hs

theorem tapFrame_quiet {t : TapId} {f : TapFrame} {order : MeterOrder} (h : exec (.tapFrame t f order) s = .next u) :
    u.Quiet := by
  refine keeps_powered (P := State.Quiet) h hs ?_
  split
  · split
    · exact hs.of_frame (frame_census s _ _ _) (by simp)
    · exact hs.of_frame (frame_census s _ _ _) (by simp)
    · exact hs.updTap (f := fun x => { x with unmapped := min (x.unmapped + 1) 65535 }) (hs.taps t)
    · exact hs.updTap (f := fun x => { x with nonFlood := min (x.nonFlood + 1) 65535 }) (hs.taps t)
    · next p _ =>
      rw [State.accept, if_neg (by simp [hr])]
      exact hs.of_frame ((frame_census s _ _ _).trans (frame_census _ _ _ _)) (by simp)
  · exact hs

theorem analysisTake_quiet (h : exec .analysisTake s = .next u) : u.Quiet := by
  refine keeps_powered (P := State.Quiet) h hs ?_
  obtain ⟨-, -, -, -, -, -, -, -, -, -, hw⟩ := hs.rest
  rw [hw]
  rcases takeFrame_cases s with h' | ⟨t, x, rest, hrun, -⟩
  · exact h'.symm ▸ hs
  · exact absurd (hr.symm.trans hrun) (by simp)

theorem beginTick_quiet : s.beginTick.Quiet := by
  have clock := frame_beginTick s
  refine ⟨?_, tapsQuiet_of_frame hs.taps clock (notIn rfl) (notIn rfl), ?_⟩
  · rw [beginTick_held hr]
    exact hs.ports
  · rw [beginTick_held hr]
    exact hs.rest

set_option Elab.async false in
theorem msTick_quiet {order : MeterOrder} (h : exec (.msTick order) s = .next u) : u.Quiet := by
  refine keeps_powered (P := State.Quiet) h hs ?_
  rw [if_neg (by simp [hr])]
  split
  · exact hs.of_frame (frame_tickBegun s false) (by simp)
  · exact beginTick_quiet hr hs

theorem tenthTick_quiet (h : exec .tenthTick s = .next u) : u.Quiet := by
  refine keeps_powered (P := State.Quiet) h hs ?_
  split
  · refine ⟨fun p => ?_, hs.taps, hs.rest⟩
    dsimp only
    rw [if_neg (by simp [hr])]
    exact hs.ports p
  · exact hs

theorem classIntervalExpiry_quiet {order : ExpiryOrder} (h : exec (.classIntervalExpiry order) s = .next u) : u.Quiet := by
  refine keeps_powered (P := State.Quiet) h hs ?_
  have none : s.classExpiry = s := by simp [State.classExpiry, hr]
  cases order with
  | drainFirst => exact none.symm ▸ hs
  | expiryFirst => simpa [hr] using hs

omit hr in
theorem servingAttempt_quiet {t : TapId} (h : exec (.servingAttempt t) s = .next u) : u.Quiet := by
  refine keeps_powered (P := State.Quiet) h hs ?_
  rw [if_neg (by simp [(hs.taps t).2.2])]
  exact hs

omit hr in
theorem probeSendStart_quiet {t : TapId} (h : exec (.probeSendStart t) s = .next u) : u.Quiet := by
  refine keeps_powered (P := State.Quiet) h hs ?_
  rw [if_neg (by simp [(hs.taps t).2.1])]
  exact hs

omit hr in
theorem probeDeparture_quiet {t : TapId} (h : exec (.probeDeparture t) s = .next u) : u.Quiet := by
  have ended := hs.updTap (t := t) (f := fun x => { x with sending := .idle }) (hs.taps t)
  refine keeps_powered (P := State.Quiet) h hs ?_
  split
  · exact hs
  · next q _ =>
    unfold State.orphanDeparted
    split
    · exact ended
    · exact ended.of_frame (frame_census _ _ _ _) (by simp)
  · rw [(hs.taps t).2.1]
    exact ended

/-- Placing a link bit hands nothing while the engine is HELD (R7). -/
theorem placeLink_quiet (p : Port) (up : Bool) : (s.placeLink p up).Quiet ∧ (s.placeLink p up).running = false := by
  unfold State.placeLink
  split
  · exact ⟨hs, hr⟩
  · rw [if_neg (by simp [hr])]
    refine ⟨⟨fun q => ?_, hs.taps, hs.rest⟩, hr⟩
    rw [State.updPort_ports, getElem_set_fin]
    split
    · exact hs.ports p
    · exact hs.ports q

theorem placeLinks_quiet (l : TapId) (links : BitVec 32) :
    (s.placeLinks l links).Quiet ∧ (s.placeLinks l links).running = false := by
  unfold State.placeLinks
  refine List.foldlRecOn (motive := fun t : State => t.Quiet ∧ t.running = false) _ _ ⟨hs, hr⟩ fun t ⟨hq, hrun⟩ f _ => ?_
  split
  · exact ⟨hq, hrun⟩
  · exact placeLink_quiet hrun hq _ _

theorem pollWriteEnd_quiet {l : TapId} {links : BitVec 32} {check : BitVec 4}
    (h : exec (.pollWriteEnd l links check) s = .next u) : u.Quiet := by
  rcases pollWriteEnd_cases h with rfl | ⟨-, rfl⟩
  · exact hs
  · have judged : (s.judgeWrite l links check).Quiet := by
      unfold State.judgeWrite
      split
      · obtain ⟨placed, hrun⟩ := placeLinks_quiet hr hs l (writeLinks links)
        rw [noteAttempts_held hr hrun]
        exact placed
      · exact hs.of_frame (frame_census s _ _ _) (by simp)
    exact judged.of_frame (frame_updPoll _ l _) (by simp)

omit hr in
theorem deliver_quiet (samples : List (Option Port × GateCode)) : (s.deliver samples).Quiet := by
  unfold State.deliver
  refine List.foldlRecOn (motive := State.Quiet) _ _ hs fun t hq x _ => ?_
  split
  · next p code _ =>
    refine ⟨fun q => ?_, hq.taps, hq.rest⟩
    rw [State.updPort_ports, getElem_set_fin]
    split
    · exact hq.ports p
    · exact hq.ports q
  · exact hq

omit hr in
theorem pollComplete_quiet {l : TapId} (h : exec (.pollComplete l) s = .next u) : u.Quiet := by
  rcases pollComplete_cases h with rfl | ⟨samples, -, rfl⟩
  · exact hs
  · have counted := Frame.foldl (fun t (p : Port) => frame_census t .gateClosings (some p) 1) (s.closings samples)
      (s.deliver samples)
    have delivered : State.Quiet _ := (deliver_quiet hs samples).of_frame counted (by simp)
    exact ⟨delivered.ports, delivered.taps, delivered.rest⟩

end

/-! ### Writes of the profile -/

theorem writeField_quiet {s t : State} {f : FieldId} {v : Nat} (hs : s.Quiet) (h : s.writeField f v = some t) : t.Quiet := by
  have kept {g : Port → PortRec} {r : Profile} (hg : ∀ p, (g p).quiet) :
      State.Quiet { s with profile := r, ports := Vector.ofFn g } :=
    ⟨fun p => by simpa using hg p, hs.taps, hs.rest⟩
  have written (r : Profile) : State.Quiet { s with profile := r } := ⟨hs.ports, hs.taps, hs.rest⟩
  cases f with
  | window i part =>
    obtain ⟨w, -, rfl⟩ := Option.map_eq_some_iff.mp h
    refine kept fun p => ?_
    split
    · exact hs.ports p
    · exact hs.ports p
  | hmax =>
    obtain rfl := Option.some.inj h
    refine kept fun p => ?_
    unfold PortRec.capHold
    split
    · exact hs.ports p
    · exact hs.ports p
  | we =>
    obtain rfl := Option.some.inj h
    obtain ⟨hlevel, hclass, hslot, hdecay, hindex, hsweep, hprobes, htable, hrest⟩ := hs.rest
    refine ⟨hs.ports, hs.taps, hlevel, hclass, hslot, hdecay, hindex, hsweep, hprobes, ?_, hrest⟩
    simp [State.freeStaleEntries, htable]
  | cp1Attached =>
    obtain rfl := Option.some.inj h
    exact hs.of_frame (frame_setAttached s _) (by simp)
  | ledOn i =>
    obtain rfl := Option.some.inj h
    exact ⟨hs.ports, hs.taps, hs.rest⟩
  | ledOff i =>
    obtain rfl := Option.some.inj h
    exact ⟨hs.ports, hs.taps, hs.rest⟩
  | _ =>
    obtain rfl := Option.some.inj h
    exact written _

theorem writeRun_quiet {s : State} (hs : s.Quiet) (vs : List (FieldId × Nat)) : (s.writeRun vs).1.Quiet := by
  induction vs generalizing s with
  | nil => exact hs
  | cons x rest ih =>
    obtain ⟨f, v⟩ := x
    simp only [State.writeRun]
    split
    · exact hs
    · next t ht => exact ih (writeField_quiet hs ht)

theorem writeProfile_quiet {s u : State} (hs : s.Quiet) {cp : CtlPort} {start count : Byte} {values : List Byte}
    (h : exec (.writeProfile cp start count values) s = .next u) : u.Quiet := by
  rcases writeProfile_cases h with rfl | ⟨st, rfl⟩ | ⟨vs, st, -, -, -, rfl⟩
  · exact hs
  · exact hs.of_frame (frame_answer s _ _ _ _) (by simp)
  · exact (writeRun_quiet hs vs).of_frame (frame_answer _ _ _ _ _) (by simp)

/-! ### Restart and reset -/

set_option Elab.async false in
theorem restart_quiet (s : State) : s.restart.Quiet := by
  refine ⟨fun p => ?_, fun t => ?_, rfl, rfl, rfl, rfl, rfl, rfl, rfl, rfl, rfl, rfl, rfl⟩
  · simp [State.restart, PortRec.quiet, PortRec.restart]
  · cases t
    · exact TapRec.quiet_restart _
    · exact TapRec.quiet_restart _

theorem powerOn_quiet (unit : BitVec 40) : (State.powerOn unit).Quiet := by
  refine ⟨fun p => ?_, fun t => ?_, rfl, rfl, rfl, rfl, rfl, rfl, rfl, rfl, rfl, rfl, rfl⟩
  · simp [State.powerOn, PortRec.quiet, PortRec.reset]
  · cases t
    · exact TapRec.quiet_reset
    · exact TapRec.quiet_reset

theorem becomeRunning_running (s : State) : s.becomeRunning.running = true := rfl

theorem restartEngine_heldOk (s : State) (hold : Bool) : (s.restartEngine hold).heldOk := by
  rw [quiet_iff]
  unfold State.restartEngine
  split
  · exact fun _ => restart_quiet s
  · exact fun hr => absurd hr (by simp [becomeRunning_running])

/-! ### Every command -/

/-- A command changes whether the engine is RUNNING in these rows alone (R178, R179, R181, R182). -/
theorem running_written {c : Instr} (h : Part.running ∈ writes c) : c = .resetAssert ∨ c = .resetRelease
    ∨ (∃ acked, c = .loadEnd acked) ∨ (∃ cp hold, c = .restartEngine cp hold) ∨ ∃ cp, c = .releaseEngine cp := by
  cases c with
  | resetAssert => exact .inl rfl
  | resetRelease => exact .inr (.inl rfl)
  | loadEnd acked => exact .inr (.inr (.inl ⟨acked, rfl⟩))
  | restartEngine cp hold => exact .inr (.inr (.inr (.inl ⟨cp, hold, rfl⟩)))
  | releaseEngine cp => exact .inr (.inr (.inr (.inr ⟨cp, rfl⟩)))
  | _ => exact absurd h (notIn rfl)

theorem loadEnd_heldOk {s u : State} (hs : s.heldOk) {acked : List Byte} (h : exec (.loadEnd acked) s = .next u) : u.heldOk := by
  refine keeps_powered (P := State.heldOk) h hs ?_
  split
  · rw [quiet_iff, endLoad_eq]
    exact fun hr => absurd hr (by simp [becomeRunning_running])
  · exact hs

theorem releaseEngine_heldOk {s u : State} (hs : s.heldOk) {cp : CtlPort} (h : exec (.releaseEngine cp) s = .next u) :
    u.heldOk := by
  refine keeps_command (P := State.heldOk) h hs (fun _ => hs) ?_
  split
  · exact hs
  · rw [quiet_iff]
    exact fun hr => absurd hr (by simp [becomeRunning_running])

/-- A row that leaves the engine HELD leaves nothing of it to act. -/
theorem exec_quiet {c : Instr} {s u : State} (hw : Part.running ∉ writes c) (hr : s.running = false) (hs : s.Quiet)
    (h : exec c s = .next u) : u.Quiet := by
  by_cases hc : ofEngine c = true
  · exact exec_ofEngine_held hc hr h ▸ hs
  by_cases hg : changesGates c = true
  · exact hs.of_frame (exec_changesGates_held hg hr h) (by simp)
  cases c with
  | tapLinkUp t => exact tapLinkUp_quiet hr hs h
  | tapLinkDown t => exact tapLinkDown_quiet hs h
  | tapFrame t f order => exact tapFrame_quiet hr hs h
  | analysisTake => exact analysisTake_quiet hr hs h
  | msTick order => exact msTick_quiet hr hs h
  | tenthTick => exact tenthTick_quiet hr hs h
  | classIntervalExpiry order => exact classIntervalExpiry_quiet hr hs h
  | servingAttempt t => exact servingAttempt_quiet hs h
  | probeSendStart t => exact probeSendStart_quiet hs h
  | probeDeparture t => exact probeDeparture_quiet hs h
  | pollWriteEnd l links check => exact pollWriteEnd_quiet hr hs h
  | pollComplete l => exact pollComplete_quiet hs h
  | writeProfile cp start count values => exact writeProfile_quiet hs h
  | resetAssert | resetRelease | loadEnd | restartEngine | releaseEngine => exact absurd (isIn rfl) hw
  | slotExpiry | decayExpiry | probeRetireLife | queuedEntryLife | urgentRequest | linkUp | linkDown | watchCrossing
  | downwardCrossing | riseThroughR | echoScoreChange | causeTaken | pinnedLoop | classNoCandidate | listenCompletion
  | listenTimeout | releaseTimerExpiry | goodStandingExpiry | holdExpiry => exact absurd rfl hc
  | setModeHeld | setModePinned | setModeAuto | release | releaseAll => exact absurd rfl hg
  | _ => exact hs.of_frame (exec_frame h) (noneIn rfl)

set_option Elab.async false in
/-- Every command leaves nothing of a HELD engine to act (R141). -/
theorem exec_heldOk {c : Instr} {s u : State} (hs : s.heldOk) (h : exec c s = .next u) : u.heldOk := by
  by_cases hw : Part.running ∈ writes c
  · rcases running_written hw with rfl | rfl | ⟨acked, rfl⟩ | ⟨cp, hold, rfl⟩ | ⟨cp, rfl⟩
    · obtain rfl := Host.Outcome.next.inj h
      have off := powerOn_quiet s.unitNumber
      exact (quiet_iff _).mpr fun _ => ⟨off.ports, off.taps, off.rest⟩
    · obtain rfl := Host.Outcome.next.inj h
      have off := powerOn_quiet s.unitNumber
      split
      · exact (quiet_iff _).mpr fun _ => ⟨off.ports, off.taps, off.rest⟩
      · exact hs
    · exact loadEnd_heldOk hs h
    · refine keeps_command (P := State.heldOk) h hs (fun _ => hs) ?_
      split
      · next hold _ => exact restartEngine_heldOk s hold
      · exact hs
    · exact releaseEngine_heldOk hs h
  · rw [quiet_iff] at hs ⊢
    intro hr
    have held : s.running = false := (exec_frame h .running hw).symm.trans hr
    exact exec_quiet hw held (hs held) h

/-- Settles O60: each of the five by the rows that write its parts. -/
theorem engineStaysInOrder : Obligations.EngineStaysInOrder := fun _ _ h =>
  ⟨fun hs => step_keeps (P := State.listOk) (fun _ _ hs => hs) (fun _ _ _ => exec_listOk) hs h,
    fun hs => step_keeps (P := State.tapsOk) (fun _ _ hs => hs) (fun _ _ _ => exec_tapsOk) hs h,
    fun hs => step_keeps (P := State.tableOk) (fun _ _ hs => hs) (fun _ _ _ => exec_tableOk) hs h,
    fun hs => step_keeps (P := State.heldOk) (fun _ _ hs => hs) (fun _ _ _ => exec_heldOk) hs h,
    fun hs => step_keeps (P := State.countsOk) (fun _ _ hs => hs) (fun _ _ _ => exec_countsOk) hs h⟩

end Sys2Proof.Machine
end

section
/-! PROOF. The incident ring, its numbers and its cursors stay in order over every command (R154 to R157, R160). -/

namespace Sys2Proof.Machine

open Sys2Proof.Spec

/-! ### The ring alone (R154, R155) -/

/-- The records of a ring are numbered without a gap up to the newest, which has the number before the next (R154). -/
def NumberedTo (ring : List Incident) (next : Word16) : Prop :=
  ring.map (·.number) = (List.range ring.length).map fun i => next - BitVec.ofNat 16 (ring.length - i)

theorem numberedTo_iff (ring : List Incident) (next : Word16) : NumberedTo ring next ↔
    ∀ (i : Nat) (h : i < ring.length), ring[i].number = next - BitVec.ofNat 16 (ring.length - i) := by
  rw [NumberedTo, List.ext_getElem_iff]
  simp

/-- Freeing the oldest records leaves the others numbered. -/
theorem NumberedTo.drop {ring : List Incident} {next : Word16} (h : NumberedTo ring next) (k : Nat) :
    NumberedTo (ring.drop k) next := by
  rw [numberedTo_iff] at h ⊢
  intro i hi
  rw [List.length_drop] at hi
  rw [List.getElem_drop, List.length_drop, h (k + i) (by omega), Nat.sub_add_eq]

/-- A record with the next number is placed newest (R154). -/
theorem NumberedTo.append {ring : List Incident} {next : Word16} (h : NumberedTo ring next) {x : Incident}
    (hx : x.number = next) : NumberedTo (ring ++ [x]) (next + 1) := by
  rw [numberedTo_iff] at h ⊢
  intro i hi
  rw [List.length_append, List.length_singleton] at hi ⊢
  by_cases hlt : i < ring.length
  · rw [List.getElem_append_left hlt, h i hlt, show ring.length + 1 - i = ring.length - i + 1 by omega]
    bv_omega
  · obtain rfl : i = ring.length := by omega
    rw [List.getElem_append_right (le_refl _)]
    simp [hx]

/-! ### The readers (R155, R160) -/

/-- A control port has no trace of the ring (R160). -/
def CtlRec.offRing (c : CtlRec) : Prop :=
  c.unread = 0 ∧ c.lost = 0 ∧ c.has .incident = false ∧ c.has .ringLoss = false ∧ c.answer.readsIncidents = false

theorem ringOk_iff (s : State) : s.ringOk ↔ s.ring.length ≤ 32 ∧ NumberedTo s.ring s.nextNumber
    ∧ s.ring.length = s.furthest ∧ (∀ cp, (s.cps.get cp).lost ≤ 255)
    ∧ ∀ cp, s.attached cp = false → (s.cps.get cp).offRing := by
  constructor
  · rintro ⟨hlen, hnum, hfar, h0, h1, hoff⟩
    refine ⟨hlen, hnum, hfar, fun cp => ?_, fun cp hcp => ?_⟩
    · cases cp
      · exact h0
      · exact h1
    · cases cp
      · cases hcp
      · exact hoff hcp
  · rintro ⟨hlen, hnum, hfar, hlost, hoff⟩
    exact ⟨hlen, hnum, hfar, hlost .cp0, hlost .cp1, hoff .cp1⟩

/-- What a control port may do without moving its cursor: lower its lost count, and, where it is detached, neither set a flag
of the ring nor begin to read it. -/
def CtlRec.ReadsAs (attached : Bool) (c d : CtlRec) : Prop :=
  d.unread = c.unread ∧ d.lost ≤ c.lost ∧ (attached = false → c.offRing → d.offRing)

theorem CtlRec.ReadsAs.refl (attached : Bool) (c : CtlRec) : c.ReadsAs attached c := ⟨rfl, le_refl _, fun _ h => h⟩

theorem CtlRec.ReadsAs.trans {attached : Bool} {c d e : CtlRec} (h : c.ReadsAs attached d) (h' : d.ReadsAs attached e) :
    c.ReadsAs attached e :=
  ⟨h'.1.trans h.1, h'.2.1.trans h.2.1, fun hd hc => h'.2.2 hd (h.2.2 hd hc)⟩

/-- Two states with the same ring and the same cursors. -/
structure State.SameReaders (s t : State) : Prop where
  ring : t.ring = s.ring
  next : t.nextNumber = s.nextNumber
  attached : t.profile.cp1Attached = s.profile.cp1Attached
  cps : ∀ cp, (s.cps.get cp).ReadsAs (s.attached cp) (t.cps.get cp)

theorem attached_congr {s t : State} (h : t.profile.cp1Attached = s.profile.cp1Attached) (cp : CtlPort) :
    t.attached cp = s.attached cp := by
  cases cp
  · rfl
  · exact h

theorem State.SameReaders.refl (s : State) : s.SameReaders s := ⟨rfl, rfl, rfl, fun _ => .refl _ _⟩

theorem State.SameReaders.trans {s t u : State} (h : s.SameReaders t) (h' : t.SameReaders u) : s.SameReaders u :=
  ⟨h'.ring.trans h.ring, h'.next.trans h.next, h'.attached.trans h.attached, fun cp =>
    (h.cps cp).trans (attached_congr h.attached cp ▸ h'.cps cp)⟩

theorem State.SameReaders.ite {s t u : State} {p : Prop} [Decidable p] (ht : s.SameReaders t) (hu : s.SameReaders u) :
    s.SameReaders (if p then t else u) := by
  split
  · exact ht
  · exact hu

theorem State.SameReaders.furthest {s t : State} (h : s.SameReaders t) : t.furthest = s.furthest := by
  have h0 : t.cps.cp0.unread = s.cps.cp0.unread := (h.cps .cp0).1
  have h1 : t.cps.cp1.unread = s.cps.cp1.unread := (h.cps .cp1).1
  rw [State.furthest, State.furthest, h.attached, h0, h1]

theorem State.SameReaders.ringOk {s t : State} (h : s.SameReaders t) (hs : s.ringOk) : t.ringOk := by
  rw [ringOk_iff] at hs ⊢
  obtain ⟨hlen, hnum, hfar, hlost, hoff⟩ := hs
  rw [h.ring, h.next, h.furthest]
  refine ⟨hlen, hnum, hfar, fun cp => (h.cps cp).2.1.trans (hlost cp), fun cp hcp => ?_⟩
  have hd : s.attached cp = false := (attached_congr h.attached cp).symm.trans hcp
  exact (h.cps cp).2.2 hd (hoff cp hd)

/-- A change of neither ring nor control ports nor profile. -/
theorem sameReaders_of_frame {W : List Part} {s t : State} (h : Frame W s t) (hring : .ring ∉ W) (hcps : .cps ∉ W)
    (hprofile : .profile ∉ W) : s.SameReaders t := by
  obtain ⟨er, en⟩ := h .ring hring
  refine ⟨er, en, ?_, fun cp => ?_⟩
  · rw [show t.profile = s.profile from h .profile hprofile]
  · rw [show t.cps = s.cps from h .cps hcps]
    exact .refl _ _

/-- A change of one control port that leaves its cursor. -/
theorem sameReaders_updCtl (s : State) (cp : CtlPort) {f : CtlRec → CtlRec}
    (hf : (s.cps.get cp).ReadsAs (s.attached cp) (f (s.cps.get cp))) : s.SameReaders (s.updCtl cp f) := by
  refine ⟨rfl, rfl, rfl, fun k => ?_⟩
  rw [State.updCtl_cps]
  by_cases hk : k = cp
  · rw [hk, PerCp.get_set_self]
    exact hf
  · rw [PerCp.get_set_of_ne _ hk]
    exact .refl _ _

/-- An answer that reads no incidents leaves the cursor; one that does is given to an attached port, or to one that reads
already. -/
theorem readsAs_answer {c : CtlRec} {attached : Bool} {a : Answer} (ha : a.readsIncidents = true → attached = true
    ∨ c.answer.readsIncidents = true) (phase : TransPhase) (status : Option Status) (response out : List Byte) :
    c.ReadsAs attached { c with phase := phase, status := status, response := response, answer := a, out := out } := by
  refine ⟨rfl, le_refl _, fun hd ⟨hunread, hlost, hincident, hloss, hreads⟩ => ⟨hunread, hlost, hincident, hloss, ?_⟩⟩
  rw [Bool.eq_false_iff]
  intro hr
  rcases ha hr with h | h
  · exact absurd (hd.symm.trans h) (by decide)
  · exact absurd (hreads.symm.trans h) (by decide)

theorem sameReaders_answer (s : State) (cp : CtlPort) (st : Status) (bytes : List Byte) {a : Answer}
    (ha : a.readsIncidents = true → s.attached cp = true ∨ (s.cps.get cp).answer.readsIncidents = true) :
    s.SameReaders (s.answer cp st bytes a) := sameReaders_updCtl s cp (readsAs_answer ha _ _ _ _)

theorem sameReaders_respond (s : State) (cp : CtlPort) (bytes : List Byte) {a : Answer}
    (ha : a.readsIncidents = true → s.attached cp = true ∨ (s.cps.get cp).answer.readsIncidents = true) :
    s.SameReaders (s.respond cp bytes a) := sameReaders_updCtl s cp (readsAs_answer ha _ _ _ _)

/-- A response other than READ_INCIDENTS leaves the cursors. -/
theorem readsAs_silent (c : CtlRec) (attached : Bool) {a : Answer} (ha : a.readsIncidents = false) (phase : TransPhase)
    (status : Option Status) (response out : List Byte) : c.ReadsAs attached
      { c with phase := phase, status := status, response := response, answer := a, out := out } :=
  readsAs_answer (fun h => absurd (ha.symm.trans h) (by decide)) _ _ _ _

theorem sameReaders_told (s : State) (cp : CtlPort) (st : Status) (bytes : List Byte) {a : Answer}
    (ha : a.readsIncidents = false) : s.SameReaders (s.answer cp st bytes a) :=
  sameReaders_updCtl s cp (readsAs_silent _ _ ha _ _ _ _)

set_option Elab.async false in
theorem sameReaders_copied (s : State) (cp : CtlPort) (bytes : List Byte) {a : Answer} (ha : a.readsIncidents = false) :
    s.SameReaders (s.respond cp bytes a) := sameReaders_updCtl s cp (readsAs_silent _ _ ha _ _ _ _)

/-- A command that has changed neither ring nor cursors answers with no response bytes. -/
theorem sameReaders_fixed {s t : State} (h : s.SameReaders t) (cp : CtlPort) (st : Status) :
    s.SameReaders (t.answer cp st [] .fixed) := h.trans (sameReaders_told t cp st [] rfl)

/-- The flags of the ring stay where another flag is set (R161). -/
theorem readsAs_raise (attached : Bool) (c : CtlRec) {f : EventFlag} (hi : f ≠ .incident) (hl : f ≠ .ringLoss) :
    c.ReadsAs attached (c.raise f) := by
  have kept (g : EventFlag) (hg : g ≠ f) : (c.raise f).has g = c.has g := by
    have h := EventFlag.or_bit_and_bit c.flags f g
    rw [decide_eq_false hg, Bool.or_false] at h
    exact h
  exact ⟨rfl, le_refl _, fun _ ⟨hunread, hlost, hincident, hloss, hreads⟩ =>
    ⟨hunread, hlost, (kept _ hi.symm).trans hincident, (kept _ hl.symm).trans hloss, hreads⟩⟩

/-- Clearing flags sets none (R163). -/
theorem cleared_has (c : CtlRec) (captured : Word16) {f : EventFlag} (h : c.has f = false) :
    (c.clearCaptured captured).has f = false := by
  rw [CtlRec.has, decide_eq_false_iff_not, not_not] at h ⊢
  rw [CtlRec.clearCaptured, BitVec.and_assoc, BitVec.and_comm _ f.bit, ← BitVec.and_assoc, h]
  exact BitVec.zero_and

theorem sameReaders_raiseOn (s : State) (cp : CtlPort) {f : EventFlag} (hi : f ≠ .incident) (hl : f ≠ .ringLoss) :
    s.SameReaders (s.raiseOn cp f) := sameReaders_updCtl s cp (f := (·.raise f)) (readsAs_raise _ _ hi hl)

theorem sameReaders_raiseAttached (s : State) {f : EventFlag} (hi : f ≠ .incident) (hl : f ≠ .ringLoss) :
    s.SameReaders (s.raiseAttached f) := by
  refine ⟨rfl, rfl, rfl, fun cp => ?_⟩
  cases cp with
  | cp0 => exact readsAs_raise _ _ hi hl
  | cp1 =>
    change CtlRec.ReadsAs _ _ (if s.profile.cp1Attached then s.cps.cp1.raise f else s.cps.cp1)
    split
    · exact readsAs_raise _ _ hi hl
    · exact .refl _ _

/-! ### A record and a reading (R155 to R157) -/

theorem afterRecord_unread (c : CtlRec) (lost : Bool) :
    (c.afterRecord lost).unread = if lost then c.unread else c.unread + 1 := by cases lost <;> rfl

theorem afterRecord_lost {c : CtlRec} (h : c.lost ≤ 255) (lost : Bool) : (c.afterRecord lost).lost ≤ 255 := by
  cases lost with
  | false => exact h
  | true => exact Nat.min_le_right _ _

/-- An attached port has one more record to read, or as many as the ring holds. -/
theorem record_unread {s : State} (h : s.ringOk) (r : IncidentReq) {cp : CtlPort} (hcp : s.attached cp = true) :
    ((s.record r).cps.get cp).unread = min ((s.cps.get cp).unread + 1) 32 := by
  have hle : (s.cps.get cp).unread ≤ 32 := (State.unread_le_ring h hcp).trans h.1
  rw [State.record_cps_of_attached hcp, State.losesOldest_eq h hcp, afterRecord_unread]
  generalize (s.cps.get cp).unread = n at hle
  by_cases hn : n = 32
  · subst hn
    rfl
  · rw [if_neg (by simpa using hn), Nat.min_eq_left (by omega)]

theorem min_succ_max {n a b : Nat} (h : n = max a b) :
    min (n + 1) 32 = max (min (a + 1) 32) (min (b + 1) 32) := by
  rw [h, ← Nat.add_max_add_right, min_max_distrib_right]

theorem record_furthest {s : State} (h : s.ringOk) (r : IncidentReq) (hfar : s.ring.length = s.furthest) :
    min (s.ring.length + 1) 32 = (s.record r).furthest := by
  have h0 : (s.record r).cps.cp0.unread = min (s.cps.cp0.unread + 1) 32 := record_unread h r (cp := .cp0) rfl
  have same : (s.record r).profile = s.profile := rfl
  rw [State.furthest] at hfar
  rw [State.furthest, h0, same]
  cases ha : s.profile.cp1Attached with
  | true =>
    rw [ha] at hfar
    have h1 : (s.record r).cps.cp1.unread = min (s.cps.cp1.unread + 1) 32 := record_unread h r (cp := .cp1) ha
    rw [h1]
    exact min_succ_max hfar
  | false =>
    rw [ha] at hfar
    have only : s.ring.length = s.cps.cp0.unread := hfar.trans (Nat.max_zero _)
    rw [only]
    exact (Nat.max_zero _).symm

/-- The ring takes a record request. -/
theorem record_ringOk {s : State} (h : s.ringOk) (r : IncidentReq) : (s.record r).ringOk := by
  obtain ⟨hlen, hnum, hfar, hlost, hoff⟩ := (ringOk_iff s).mp h
  refine (ringOk_iff _).mpr ⟨?_, ?_, ?_, fun cp => ?_, fun cp hcp => ?_⟩
  · rw [State.record_ring_length hlen]
    exact Nat.min_le_right _ _
  · have next : (s.record r).nextNumber = s.nextNumber + 1 := rfl
    rw [State.record_ring_of_le hlen, next]
    split
    · exact (hnum.drop 1).append rfl
    · exact hnum.append rfl
  · rw [State.record_ring_length hlen]
    exact record_furthest h r hfar
  · cases hcp : s.attached cp with
    | true =>
      rw [State.record_cps_of_attached hcp]
      exact afterRecord_lost (hlost cp) _
    | false =>
      rw [State.record_cps_of_detached hcp]
      exact hlost cp
  · rw [State.record_cps_of_detached (show s.attached cp = false from hcp)]
    exact hoff cp hcp

/-- No port stands further back where no cursor has moved back (R155). -/
theorem furthest_mono {s t : State} (ha : t.profile.cp1Attached = s.profile.cp1Attached)
    (h : ∀ cp, (t.cps.get cp).unread ≤ (s.cps.get cp).unread) : t.furthest ≤ s.furthest := by
  rw [State.furthest, State.furthest, ha]
  refine max_le_max (h .cp0) ?_
  split
  · exact h .cp1
  · exact le_refl _

/-- Records that every attached cursor has passed are freed (R155). -/
theorem freeRead_ringOk {s : State} (hlen : s.ring.length ≤ 32) (hnum : NumberedTo s.ring s.nextNumber)
    (hfar : s.furthest ≤ s.ring.length) (hlost : ∀ cp, (s.cps.get cp).lost ≤ 255)
    (hoff : ∀ cp, s.attached cp = false → (s.cps.get cp).offRing) : s.freeRead.ringOk := by
  have hlength : s.freeRead.ring.length = s.furthest := by
    rw [State.freeRead, List.length_drop]
    omega
  refine (ringOk_iff _).mpr ⟨hlength.trans_le (hfar.trans hlen), hnum.drop _, hlength, hlost, hoff⟩

theorem beginRecord_sameReaders {s : State} {cp : CtlPort} {r : IncidentAnswer} (h : (s.cps.get cp).answer = .incidents r) :
    s.SameReaders (s.beginRecord cp r) := by
  unfold State.beginRecord
  split
  · split
    · exact .refl s
    · exact sameReaders_respond s cp _ fun _ => .inr (by rw [h]; rfl)
  · exact .refl s

/-- The last byte of a record is out: the cursor moves onto it, and what every port has read is freed (R155, R158). -/
theorem consume_ringOk {s : State} (h : s.ringOk) (cp : CtlPort) : (s.consume cp).ringOk := by
  unfold State.consume
  split
  · next r hr =>
    split
    · exact h
    · obtain ⟨hlen, hnum, hfar, hlost, hoff⟩ := (ringOk_iff s).mp h
      have hattached : s.attached cp = true := by
        by_contra hd
        obtain ⟨-, -, -, -, hreads⟩ := hoff cp (Bool.eq_false_iff.mpr hd)
        rw [hr] at hreads
        cases hreads
      refine freeRead_ringOk hlen hnum ?_ (fun k => ?_) fun k hk => ?_
      · refine le_trans (furthest_mono (s := s) rfl fun k => ?_) hfar.ge
        rw [State.updCtl_cps]
        by_cases hk : k = cp
        · rw [hk, PerCp.get_set_self]
          dsimp only
          split <;> omega
        · rw [PerCp.get_set_of_ne _ hk]
      · rw [State.updCtl_cps]
        by_cases hk : k = cp
        · rw [hk, PerCp.get_set_self]
          exact hlost cp
        · rw [PerCp.get_set_of_ne _ hk]
          exact hlost k
      · have hne : k ≠ cp := fun e => absurd ((e ▸ hk : s.attached cp = false).symm.trans hattached) (by decide)
        rw [State.updCtl_cps, PerCp.get_set_of_ne _ hne]
        exact hoff k hk
  · exact h

/-! ### The attachment (R160) -/

/-- A detached port has no trace of the ring. -/
theorem CtlRec.detach_offRing (c : CtlRec) : c.detach.offRing := by
  have cleared (f : EventFlag) (hf : f = .incident ∨ f = .ringLoss) :
      (c.flags &&& ~~~(EventFlag.incident.bit ||| EventFlag.ringLoss.bit)) &&& f.bit = 0 := by
    have masked : ~~~(EventFlag.incident.bit ||| EventFlag.ringLoss.bit) &&& f.bit = 0 := by
      rcases hf with rfl | rfl
      · decide
      · decide
    rw [BitVec.and_assoc, masked]
    exact BitVec.and_zero
  rcases detach_cases c with ⟨-, h⟩ | ⟨hreads, h⟩ <;> rw [h]
  · exact ⟨rfl, rfl, by simp [CtlRec.has, cleared], by simp [CtlRec.has, cleared], rfl⟩
  · exact ⟨rfl, rfl, by simp [CtlRec.has, cleared], by simp [CtlRec.has, cleared], hreads⟩

theorem setAttached_ringOk {s : State} (h : s.ringOk) (yes : Bool) : (s.setAttached yes).ringOk := by
  unfold State.setAttached
  split
  · exact h
  · obtain ⟨hlen, hnum, hfar, hlost, hoff⟩ := (ringOk_iff s).mp h
    have hfar0 : s.cps.cp0.unread ≤ s.ring.length := State.unread_le_ring (cp := .cp0) h rfl
    cases yes with
    | true =>
      refine freeRead_ringOk hlen hnum (max_le hfar0 (Nat.zero_le _)) (fun cp => ?_) fun cp hcp => ?_
      · cases cp
        · exact hlost .cp0
        · exact Nat.zero_le _
      · cases cp <;> cases hcp
    | false =>
      have off := CtlRec.detach_offRing s.cps.cp1
      refine freeRead_ringOk hlen hnum (max_le hfar0 (Nat.zero_le _)) (fun cp => ?_) fun cp hcp => ?_
      · cases cp
        · exact hlost .cp0
        · exact off.2.1.trans_le (Nat.zero_le _)
      · cases cp
        · cases hcp
        · exact off

/-! ### Writes of the profile -/

/-- A field that is not the attachment of control port 1 leaves it (R171). -/
theorem Profile.write_cp1Attached (pr : Profile) {f : FieldId} (h : f ≠ .cp1Attached) (v : Nat) :
    (pr.write f v).cp1Attached = pr.cp1Attached := by
  cases f with
  | cp1Attached => exact absurd rfl h
  | _ => rfl

set_option Elab.async false in
theorem writeField_ringOk {s t : State} (hs : s.ringOk) {f : FieldId} {v : Nat} (h : s.writeField f v = some t) :
    t.ringOk := by
  by_cases hf : f = .cp1Attached
  · subst hf
    obtain rfl := Option.some.inj h
    exact setAttached_ringOk hs _
  · refine State.SameReaders.ringOk ?_ hs
    have kept := Profile.write_cp1Attached s.profile hf v
    cases f with
    | cp1Attached => exact absurd rfl hf
    | window i part =>
      obtain ⟨w, -, rfl⟩ := Option.map_eq_some_iff.mp h
      exact ⟨rfl, rfl, rfl, fun _ => .refl _ _⟩
    | _ =>
      obtain rfl := Option.some.inj h
      exact ⟨rfl, rfl, kept, fun _ => .refl _ _⟩

theorem writeRun_ringOk {s : State} (hs : s.ringOk) (vs : List (FieldId × Nat)) : (s.writeRun vs).1.ringOk := by
  induction vs generalizing s with
  | nil => exact hs
  | cons x rest ih =>
    obtain ⟨f, v⟩ := x
    simp only [State.writeRun]
    split
    · exact hs
    · next t ht => exact ih (writeField_ringOk hs ht)

theorem endLoad_ringOk {s : State} (hs : s.ringOk) (acked : List Byte) : (s.endLoad acked).ringOk := by
  rw [endLoad_eq]
  have stored : s.SameReaders (s.stored acked) := ⟨rfl, rfl, rfl, fun _ => .refl _ _⟩
  have told := (stored.trans (sameReaders_raiseAttached _ (f := .storeStatus) (by decide) (by decide))).trans
    (sameReaders_of_frame (frame_takeModes _) (notIn rfl) (notIn rfl) (notIn rfl))
  exact (sameReaders_of_frame (frame_becomeRunning _) (notIn rfl) (notIn rfl) (notIn rfl)).ringOk
    (setAttached_ringOk (told.ringOk hs) _)

/-! ### Rows that make records -/

theorem report_ringOk {s : State} (hs : s.ringOk) (p : Port) (r : IncidentReq) : (s.report p r).ringOk := by
  rcases report_cases s p r with ⟨-, h⟩ | ⟨-, h⟩ <;> rw [h]
  · exact hs
  · exact record_ringOk ((sameReaders_of_frame (frame_updPort s p _) (notIn rfl) (notIn rfl) (notIn rfl)).ringOk hs) r

/-- A change that leaves ring and readers, and its MANUAL record (R135). -/
theorem manual_ringOk {s before t : State} (hs : s.ringOk) (h : s.SameReaders t) (p : Port) (a : IncAction) :
    (State.manual before t p a).ringOk := by
  rcases manual_cases before t p a with h' | h' <;> rw [h']
  · exact h.ringOk hs
  · exact record_ringOk (h.ringOk hs) _

theorem sameReaders_listenOrDown (s : State) (p : Port) : s.SameReaders (s.listenOrDown p) :=
  sameReaders_of_frame (frame_listenOrDown s p) (notIn rfl) (notIn rfl) (notIn rfl)

theorem sameReaders_noteAttempts (before s : State) : s.SameReaders (noteAttempts before s) :=
  sameReaders_of_frame (frame_noteAttempts s before) (notIn rfl) (notIn rfl) (notIn rfl)

theorem sameReaders_updPort (s : State) (p : Port) (f : PortRec → PortRec) : s.SameReaders (s.updPort p f) :=
  sameReaders_of_frame (frame_updPort s p f) (notIn rfl) (notIn rfl) (notIn rfl)

theorem manualRelease_ringOk {s : State} (hs : s.ringOk) (p : Port) (forgive : Bool) (a : IncAction) :
    (s.manualRelease p forgive a).ringOk :=
  manual_ringOk hs ((sameReaders_of_frame (frame_releasePort s p) (notIn rfl) (notIn rfl) (notIn rfl)).trans
    (sameReaders_updPort _ _ _)) p a

theorem manualReleaseAll_ringOk {s : State} (hs : s.ringOk) (forgive : Bool) : (s.manualReleaseAll forgive).ringOk := by
  have all (ps : List Port) : (ps.foldl (fun s p => s.manualRelease p forgive .releaseAll) s).ringOk := by
    induction ps generalizing s with
    | nil => exact hs
    | cons p ps ih => exact ih (manualRelease_ringOk hs p forgive _)
  rw [State.manualReleaseAll]
  exact all allPorts

theorem manualHeld_ringOk {s : State} (hs : s.ringOk) (p : Port) : (s.manualHeld p).ringOk := by
  unfold State.manualHeld
  split
  · exact hs
  · exact manual_ringOk hs (sameReaders_updPort _ _ _) p _

theorem manualPinned_ringOk {s : State} (hs : s.ringOk) (p : Port) : (s.manualPinned p).ringOk := by
  unfold State.manualPinned
  split
  · exact hs
  · exact manual_ringOk hs (sameReaders_updPort _ _ _) p _

theorem manualAuto_ringOk {s : State} (hs : s.ringOk) (p : Port) : (s.manualAuto p).ringOk := by
  unfold State.manualAuto
  split
  · exact hs
  · exact manual_ringOk hs (sameReaders_listenOrDown s p) p _

/-- A command answers with no response bytes after what it has done. -/
theorem answered_ringOk {s : State} (hs : s.ringOk) (cp : CtlPort) (st : Status) : (s.answer cp st [] .fixed).ringOk :=
  (sameReaders_fixed (.refl s) cp st).ringOk hs

theorem applyAction_ringOk {s : State} (hs : s.ringOk) (p : Port) (c : LadderCause) (x : CauseParts) (a : Action) :
    (s.applyAction p c x a).ringOk := by
  cases a with
  | ignore => exact hs
  | report => exact report_ringOk hs _ _
  | cut =>
    simp only [State.applyAction]
    split
    · exact record_ringOk ((sameReaders_updPort s p _).ringOk hs) _
    · exact report_ringOk hs _ _
  | shut =>
    simp only [State.applyAction]
    split
    · exact record_ringOk ((sameReaders_updPort s p _).ringOk hs) _
    · exact report_ringOk hs _ _

theorem applyCause_ringOk {s : State} (hs : s.ringOk) (p : Port) (c : LadderCause) (x : CauseParts) :
    (s.applyCause p c x).ringOk := by
  have named := (sameReaders_updPort s p fun r => { r with lastCause := some (.ladder c) }).ringOk hs
  unfold State.applyCause
  split
  · exact hs
  · exact hs
  · exact applyAction_ringOk named _ _ _ _
  · exact applyAction_ringOk named _ _ _ _

theorem takePinnedLoop_ringOk {s : State} (hs : s.ringOk) (p q : Port) : (s.takePinnedLoop p q).ringOk := by
  unfold State.takePinnedLoop
  split
  · exact hs
  · exact report_ringOk ((sameReaders_updPort s p _).ringOk hs) _ _

/-! ### Rows that only tell the control ports -/

theorem tapLinkDown_sameReaders {s u : State} {t : TapId} (h : exec (.tapLinkDown t) s = .next u) : s.SameReaders u := by
  refine keeps_powered (P := s.SameReaders) h (.refl s) (.ite ?_ (.refl s))
  have lost := frame_updTap s t TapRec.lost
  have retired : ∀ qs : List TxProbe, Frame [.ports, .attempts, .probes] (s.updTap t TapRec.lost)
      (qs.foldl (fun s q => s.retireUnsent q.sequence) (s.updTap t TapRec.lost)) := fun qs =>
    Frame.foldl (fun s (q : TxProbe) => frame_retireUnsent s q.sequence) qs _
  exact ((sameReaders_of_frame lost (notIn rfl) (notIn rfl) (notIn rfl)).trans
    (sameReaders_of_frame (retired _) (notIn rfl) (notIn rfl) (notIn rfl))).trans
    (sameReaders_raiseAttached _ (by decide) (by decide))

theorem classArrival_sameReaders (s : State) (p : Port) (w : Nat) : s.SameReaders (s.classArrival p w) := by
  unfold State.classArrival
  refine .ite (.refl s) ?_
  have warned : s.SameReaders (if crosses s.classLevel (min (s.classLevel + w) Config.classMax) s.profile.wc then
      s.raiseAttached .classWarn else s) := .ite (sameReaders_raiseAttached s (by decide) (by decide)) (.refl s)
  have leveled (t : State) (level : Nat) : t.SameReaders { t with classLevel := level } := ⟨rfl, rfl, rfl, fun _ => .refl _ _⟩
  have judged (t : State) : t.SameReaders t.classUpdate :=
    sameReaders_of_frame (frame_classUpdate t) (notIn rfl) (notIn rfl) (notIn rfl)
  exact (warned.trans (leveled _ _)).trans (judged _)

set_option Elab.async false in
theorem arrival_sameReaders (s : State) (order : MeterOrder) (p : Port) (w : Nat) : s.SameReaders (s.arrival order p w) := by
  have metered (t : State) : t.SameReaders (t.portArrival p w) :=
    sameReaders_of_frame (frame_portArrival t p w) (notIn rfl) (notIn rfl) (notIn rfl)
  cases order with
  | portsFirst => exact (metered s).trans (classArrival_sameReaders _ p w)
  | classFirst => exact (classArrival_sameReaders s p w).trans (metered _)

theorem offer_sameReaders (s : State) (t : TapId) (f : TapFrame) (p : Port) : s.SameReaders (s.offer t f p) := by
  unfold State.offer
  refine .ite (sameReaders_of_frame (frame_updTap s t _) (notIn rfl) (notIn rfl) (notIn rfl)) ?_
  exact (sameReaders_of_frame (frame_census s .unanalysed (some p) 1) (notIn rfl) (notIn rfl) (notIn rfl)).trans
    (sameReaders_raiseAttached _ (by decide) (by decide))

theorem sameReaders_census (s : State) (k : CensusKind) (p : Option Port) (n : Nat) : s.SameReaders (s.census k p n) :=
  sameReaders_of_frame (frame_census s k p n) (notIn rfl) (notIn rfl) (notIn rfl)

theorem accept_sameReaders (s : State) (t : TapId) (f : TapFrame) (order : MeterOrder) (p : Port) :
    s.SameReaders (s.accept t f order p) := by
  have counted := (sameReaders_census s .floodFrames (some p) 1).trans
    (sameReaders_census _ .floodUnits (some p) (weight (f.length - 4)))
  unfold State.accept
  exact .ite ((counted.trans (arrival_sameReaders _ order p _)).trans (offer_sameReaders _ t f p)) counted

theorem tapFrame_sameReaders {s u : State} {t : TapId} {f : TapFrame} {order : MeterOrder}
    (h : exec (.tapFrame t f order) s = .next u) : s.SameReaders u := by
  refine keeps_powered (P := s.SameReaders) h (.refl s) (.ite ?_ (.refl s))
  split
  · exact sameReaders_census s _ _ _
  · exact sameReaders_census s _ _ _
  · exact sameReaders_of_frame (frame_updTap s t _) (notIn rfl) (notIn rfl) (notIn rfl)
  · exact sameReaders_of_frame (frame_updTap s t _) (notIn rfl) (notIn rfl) (notIn rfl)
  · exact accept_sameReaders s t f order _

theorem breakHold_sameReaders {s u : State} {cp : CtlPort} (h : exec (.breakHold cp) s = .next u) : s.SameReaders u := by
  refine keeps_command (P := s.SameReaders) h (.refl s) (fun st => sameReaders_fixed (.refl s) cp st) ?_
  have told : s.SameReaders (if s.holdOwner = some .cp1 then s.raiseOn .cp1 .holdBroken else s) :=
    .ite (sameReaders_raiseOn s _ (by decide) (by decide)) (.refl s)
  have freed (t : State) : t.SameReaders { t with holdOwner := none } := ⟨rfl, rfl, rfl, fun _ => .refl _ _⟩
  exact sameReaders_fixed (told.trans (freed _)) cp .ok

/-- A change of the profile store alone. -/
theorem sameReaders_store (s : State) (x : StoreRec) : s.SameReaders { s with store := x } :=
  ⟨rfl, rfl, rfl, fun _ => .refl _ _⟩

theorem endSave_sameReaders (s : State) (r : SaveResult) : s.SameReaders (s.endSave r) :=
  (sameReaders_store s _).trans (sameReaders_raiseAttached _ (by decide) (by decide))

theorem restart_sameReaders (s : State) : s.SameReaders s.restart := by
  have aborted : s.SameReaders s.abortFind := by
    unfold State.abortFind
    split
    · next n r _ =>
      have held : s.SameReaders { s with find := .aborted r.target r.starter } := ⟨rfl, rfl, rfl, fun _ => .refl _ _⟩
      exact held.trans (sameReaders_raiseOn _ _ (by decide) (by decide))
    · exact .refl s
  exact ⟨aborted.ring, aborted.next, aborted.attached, aborted.cps⟩

theorem sameReaders_becomeRunning (s : State) : s.SameReaders s.becomeRunning :=
  sameReaders_of_frame (frame_becomeRunning s) (notIn rfl) (notIn rfl) (notIn rfl)

theorem restartEngine_sameReaders (s : State) (hold : Bool) : s.SameReaders (s.restartEngine hold) :=
  .ite (restart_sameReaders s) ((restart_sameReaders s).trans (sameReaders_becomeRunning _))

theorem find_sameReaders {s u : State} {ev : FindEvent} (h : exec (.find ev) s = .next u) : s.SameReaders u := by
  have found (t : State) (x : FindState) : t.SameReaders { t with find := x } := ⟨rfl, rfl, rfl, fun _ => .refl _ _⟩
  cases ev with
  | command cp target =>
    refine keeps_command (P := s.SameReaders) h (.refl s) (fun st => sameReaders_fixed (.refl s) cp st) ?_
    split
    · exact sameReaders_fixed (found s _) cp .ok
    · exact .refl s
  | scanTo place =>
    refine keeps_powered (P := s.SameReaders) h (.refl s) ?_
    split
    · exact found s _
    · exact .refl s

theorem findComplete_sameReaders {s u : State} (h : exec .findComplete s = .next u) : s.SameReaders u := by
  refine keeps_powered (P := s.SameReaders) h (.refl s) ?_
  split
  · next n r _ =>
    have found : s.SameReaders { s with find := .done (s.scan n Config.tablePlaces r) } :=
      ⟨rfl, rfl, rfl, fun _ => .refl _ _⟩
    exact found.trans (sameReaders_raiseOn _ _ (by decide) (by decide))
  · exact .refl s

theorem readIncidents_sameReaders {s u : State} {cp : CtlPort} {ev : IncidentsEvent}
    (h : exec (.readIncidents cp ev) s = .next u) : s.SameReaders u := by
  cases ev with
  | command n =>
    rcases command_cases h with ⟨-, rfl⟩ | ⟨st, -, rfl⟩ | ⟨hnone, rfl⟩
    · exact .refl _
    · exact sameReaders_fixed (.refl s) cp st
    · have ha : (!s.attached cp) = false := firstFailure_none.mp hnone (!s.attached cp, .denied) (by simp)
      exact sameReaders_answer s cp _ _ fun _ => .inl (by simpa using ha)
  | begins =>
    refine keeps_powered (P := s.SameReaders) h (.refl s) ?_
    split
    · next n hn => exact sameReaders_respond s cp _ fun _ => .inr (by rw [hn]; rfl)
    · exact .refl s
  | recordBegins =>
    refine keeps_powered (P := s.SameReaders) h (.refl s) ?_
    split
    · next r hr => exact beginRecord_sameReaders hr
    · exact .refl s
  | shiftedOut m =>
    refine keeps_powered (P := s.SameReaders) h (.refl s) (.ite ?_ (.refl s))
    exact sameReaders_updCtl s cp ⟨rfl, le_refl _, fun _ hc => hc⟩

theorem lostCountLowered_sameReaders {s u : State} {cp : CtlPort} (h : exec (.lostCountLowered cp) s = .next u) :
    s.SameReaders u := by
  refine keeps_powered (P := s.SameReaders) h (.refl s) ?_
  split
  · next r hr =>
    refine .ite (.refl s) ?_
    have lowered : s.SameReaders (s.updCtl cp fun c => { c with lost := c.lost - r.copiedLost }) :=
      sameReaders_updCtl s cp ⟨rfl, Nat.sub_le _ _, fun _ ⟨hunread, hlost, hrest⟩ => ⟨hunread, by simp [hlost], hrest⟩⟩
    refine lowered.trans (sameReaders_respond _ cp _ fun _ => .inr ?_)
    rw [State.updCtl_cps, PerCp.get_set_self]
    exact congrArg Answer.readsIncidents hr
  · exact .refl s

theorem eventFlagsCleared_sameReaders {s u : State} {cp : CtlPort} (h : exec (.eventFlagsCleared cp) s = .next u) :
    s.SameReaders u := by
  refine keeps_powered (P := s.SameReaders) h (.refl s) ?_
  split
  · next captured _ =>
    refine sameReaders_updCtl s cp ⟨rfl, le_refl _, fun _ ⟨hunread, hlost, hincident, hloss, _⟩ =>
      ⟨hunread, hlost, ?_, ?_, rfl⟩⟩
    · exact cleared_has _ _ hincident
    · exact cleared_has _ _ hloss
  · exact .refl s

/-! ### Every command -/

theorem powerOn_ringOk (unit : BitVec 40) : (State.powerOn unit).ringOk :=
  ⟨Nat.zero_le _, rfl, rfl, Nat.zero_le _, Nat.zero_le _, nofun⟩

/-- A row that makes no record, reads none to its end and writes no profile leaves the ring and its readers. -/
theorem exec_sameReaders {c : Instr} {s u : State} (hring : Part.ring ∉ writes c) (h : exec c s = .next u) :
    s.SameReaders u := by
  by_cases hw : Part.cps ∈ writes c
  · have refused (cp : CtlPort) (st : Status) : s.SameReaders (s.answer cp st [] .fixed) := sameReaders_fixed (.refl s) cp st
    have held (x : Option CtlPort) : s.SameReaders { s with holdOwner := x } := ⟨rfl, rfl, rfl, fun _ => .refl _ _⟩
    cases c with
    | tapLinkDown t => exact tapLinkDown_sameReaders h
    | tapFrame t f order => exact tapFrame_sameReaders h
    | silenceExpiry l =>
      refine keeps_powered (P := s.SameReaders) h (.refl s) (.ite ?_ (.refl s))
      exact (sameReaders_of_frame (frame_updPoll s l _) (notIn rfl) (notIn rfl) (notIn rfl)).trans
        (sameReaders_raiseAttached _ (by decide) (by decide))
    | chipSelectFall cp =>
      exact keeps_powered (P := s.SameReaders) h (.refl s) (.ite (sameReaders_updCtl s cp (readsAs_silent _ _ (by rfl) _ _ _ _)) (.refl s))
    | chipSelectRise ev =>
      refine keeps_powered (P := s.SameReaders) h (.refl s) ?_
      split
      · exact .refl s
      · exact sameReaders_updCtl s ev.cp (readsAs_silent _ _ (by rfl) _ _ _ _)
      · exact sameReaders_updCtl s ev.cp (readsAs_silent _ _ (by rfl) _ _ _ _)
    | unknownCommand cp b => exact keeps_command (P := s.SameReaders) h (.refl s) (refused cp) (.refl s)
    | readIdent ev =>
      cases ev with
      | command cp => exact keeps_command (checks := []) (P := s.SameReaders) h (.refl s) (refused cp) (sameReaders_told s cp _ _ (by rfl))
      | begins cp => exact keeps_powered (P := s.SameReaders) h (.refl s) (.ite (sameReaders_copied s cp _ (by rfl)) (.refl s))
    | readStatus ev =>
      cases ev with
      | command cp => exact keeps_command (checks := []) (P := s.SameReaders) h (.refl s) (refused cp) (sameReaders_told s cp _ _ (by rfl))
      | begins cp => exact keeps_powered (P := s.SameReaders) h (.refl s) (.ite (sameReaders_copied s cp _ (by rfl)) (.refl s))
    | deferredPortEmptied cp =>
      refine keeps_powered (P := s.SameReaders) h (.refl s) ?_
      split
      · have told : s.SameReaders (s.updCtl cp fun c => { c with answer := .fixed }) :=
          sameReaders_updCtl s cp (readsAs_silent _ _ (by rfl) _ _ _ _)
        exact ⟨told.ring, told.next, told.attached, told.cps⟩
      · exact .refl s
    | readPort cp ev =>
      cases ev with
      | command port =>
        refine keeps_command (P := s.SameReaders) h (.refl s) (refused cp) ?_
        split
        · exact sameReaders_told s cp _ _ (by rfl)
        · exact .refl s
      | viewBegins =>
        refine keeps_powered (P := s.SameReaders) h (.refl s) ?_
        split
        · exact sameReaders_copied s cp _ (by rfl)
        · exact .refl s
    | readPorts cp ev =>
      cases ev with
      | command port =>
        refine keeps_command (P := s.SameReaders) h (.refl s) (refused cp) ?_
        split
        · exact sameReaders_told s cp _ _ (by rfl)
        · exact .refl s
      | viewBegins =>
        refine keeps_powered (P := s.SameReaders) h (.refl s) ?_
        split
        · exact sameReaders_copied s cp _ (by rfl)
        · exact .refl s
    | takeHold cp =>
      exact keeps_command (P := s.SameReaders) h (.refl s) (refused cp) (sameReaders_fixed (held (some cp)) cp .ok)
    | dropHold cp =>
      exact keeps_command (checks := []) (P := s.SameReaders) h (.refl s) (refused cp)
        (sameReaders_fixed (held _) cp .ok)
    | breakHold cp => exact breakHold_sameReaders h
    | readIncidents cp ev => exact readIncidents_sameReaders h
    | lostCountLowered cp => exact lostCountLowered_sameReaders h
    | readEvents ev =>
      cases ev with
      | command cp => exact keeps_command (checks := []) (P := s.SameReaders) h (.refl s) (refused cp) (sameReaders_told s cp _ _ (by rfl))
      | begins cp =>
        refine keeps_powered (P := s.SameReaders) h (.refl s) (.ite ?_ (.refl s))
        have captured : s.SameReaders (s.updCtl cp fun c => { c with recurred := 0 }) :=
          sameReaders_updCtl s cp ⟨rfl, le_refl _, fun _ hc => hc⟩
        exact captured.trans (sameReaders_copied _ cp _ (by rfl))
    | eventFlagsCleared cp => exact eventFlagsCleared_sameReaders h
    | writeMask cp mask =>
      have masked : s.SameReaders (s.updCtl cp fun c => { c with mask := mask &&& flagBits }) :=
        sameReaders_updCtl s cp ⟨rfl, le_refl _, fun _ hc => hc⟩
      exact keeps_command (checks := []) (P := s.SameReaders) h (.refl s) (refused cp) (sameReaders_fixed masked cp .ok)
    | selectCounter cp counter kind filter =>
      refine keeps_command (P := s.SameReaders) h (.refl s) (refused cp) ?_
      split
      · refine State.SameReaders.trans ?_ (sameReaders_told _ cp _ _ (by rfl))
        exact ⟨rfl, rfl, rfl, fun _ => .refl _ _⟩
      · exact .refl s
    | readCounter cp ev =>
      cases ev with
      | command counter =>
        refine keeps_command (P := s.SameReaders) h (.refl s) (refused cp) ?_
        split
        · exact sameReaders_told s cp _ _ (by rfl)
        · exact .refl s
      | begins =>
        refine keeps_powered (P := s.SameReaders) h (.refl s) ?_
        split
        · exact sameReaders_copied s cp _ (by rfl)
        · exact .refl s
    | readProfile cp ev =>
      cases ev with
      | command start => exact keeps_command (P := s.SameReaders) h (.refl s) (refused cp) (sameReaders_told s cp _ _ (by rfl))
      | fieldBegins =>
        refine keeps_powered (P := s.SameReaders) h (.refl s) ?_
        split
        · exact sameReaders_copied s cp _ (by rfl)
        · exact .refl s
    | saveProfile cp =>
      exact keeps_command (P := s.SameReaders) h (.refl s) (refused cp) (sameReaders_fixed (sameReaders_store s _) cp .ok)
    | savePageDone =>
      refine keeps_powered (P := s.SameReaders) h (.refl s) ?_
      split
      · exact .refl s
      · exact .ite (sameReaders_store s _) (endSave_sameReaders s _)
    | savePageTimeout =>
      refine keeps_powered (P := s.SameReaders) h (.refl s) ?_
      split
      · exact .refl s
      · exact .ite (endSave_sameReaders s _) (.refl s)
    | saveNack =>
      refine keeps_powered (P := s.SameReaders) h (.refl s) ?_
      split
      · exact .refl s
      · exact endSave_sameReaders s _
    | find ev => exact find_sameReaders h
    | findComplete => exact findComplete_sameReaders h
    | readFind ev =>
      cases ev with
      | command cp =>
        exact keeps_command (checks := []) (P := s.SameReaders) h (.refl s) (refused cp)
          (sameReaders_updCtl s cp (readsAs_silent _ _ (by rfl) _ _ _ _))
      | begins cp => exact keeps_powered (P := s.SameReaders) h (.refl s) (.ite (sameReaders_told s cp _ _ (by rfl)) (.refl s))
    | restartEngine cp hold =>
      refine keeps_command (P := s.SameReaders) h (.refl s) (refused cp) ?_
      split
      · exact sameReaders_fixed (restartEngine_sameReaders s _) cp .ok
      · exact .refl s
    | releaseEngine cp =>
      exact keeps_command (P := s.SameReaders) h (.refl s) (refused cp)
        (sameReaders_fixed (.ite (.refl s) (sameReaders_becomeRunning s)) cp .ok)
    | _ => exact (notBoth rfl hw hring).elim
  · refine sameReaders_of_frame (exec_frame h) hring hw fun hp => ?_
    cases c with
    | _ => exact (notBoth rfl hp hw).elim

set_option Elab.async false in
/-- Every command keeps the ring, its numbers and its cursors in order. -/
theorem exec_ringOk {c : Instr} {s u : State} (hs : s.ringOk) (h : exec c s = .next u) : u.ringOk := by
  by_cases hw : Part.ring ∈ writes c
  · have refused (cp : CtlPort) (st : Status) : (s.answer cp st [] .fixed).ringOk := answered_ringOk hs cp st
    cases c with
    | resetAssert =>
      obtain rfl := Host.Outcome.next.inj h
      exact powerOn_ringOk s.unitNumber
    | resetRelease =>
      obtain rfl := Host.Outcome.next.inj h
      split
      · exact powerOn_ringOk s.unitNumber
      · exact hs
    | loadEnd acked =>
      refine keeps_powered (P := State.ringOk) h hs ?_
      split
      · exact endLoad_ringOk hs acked
      · exact hs
    | causeTaken p c =>
      refine keeps_powered (P := State.ringOk) h hs (keeps_takeRequest (P := State.ringOk) _ _ hs fun rest k _ => ?_)
      split
      · refine applyCause_ringOk ?_ _ _ _
        exact hs
      · exact hs
    | pinnedLoop l =>
      refine keeps_powered (P := State.ringOk) h hs (keeps_takeRequest (P := State.ringOk) _ _ hs fun rest k _ => ?_)
      split
      · refine takePinnedLoop_ringOk ?_ _ _
        exact hs
      · exact hs
    | classNoCandidate =>
      refine keeps_powered (P := State.ringOk) h hs (keeps_takeRequest (P := State.ringOk) _ _ hs fun rest k _ => ?_)
      split
      · split
        · exact hs
        · exact record_ringOk hs _
      · exact hs
    | listenTimeout p =>
      refine keeps_powered (P := State.ringOk) h hs ?_
      dsimp only
      split
      · exact record_ringOk (((sameReaders_updPort s p _).trans (sameReaders_updPort _ p _)).ringOk hs) _
      · exact hs
    | setModeHeld cp port =>
      refine keeps_command (P := State.ringOk) h hs (refused cp) ?_
      split
      · exact answered_ringOk (manualHeld_ringOk hs _) cp .ok
      · exact hs
    | setModePinned cp port =>
      refine keeps_command (P := State.ringOk) h hs (refused cp) ?_
      split
      · exact answered_ringOk (manualPinned_ringOk hs _) cp .ok
      · exact hs
    | setModeAuto cp port mode =>
      change execSetModeAuto cp port mode s = _ at h
      unfold execSetModeAuto at h
      split at h
      · exact Host.Outcome.next.inj h ▸ hs
      · refine keeps_command (P := State.ringOk) h hs (refused cp) ?_
        split
        · exact answered_ringOk ((sameReaders_noteAttempts s _).ringOk (manualAuto_ringOk hs _)) cp .ok
        · exact hs
    | release cp port forgive =>
      refine keeps_command (P := State.ringOk) h hs (refused cp) ?_
      split
      · exact answered_ringOk ((sameReaders_noteAttempts s _).ringOk (manualRelease_ringOk hs _ _ _)) cp .ok
      · exact hs
    | releaseAll cp forgive =>
      refine keeps_command (P := State.ringOk) h hs (refused cp) ?_
      split
      · exact answered_ringOk ((sameReaders_noteAttempts s _).ringOk (manualReleaseAll_ringOk hs _)) cp .ok
      · exact hs
    | incidentConsumed cp =>
      refine keeps_powered (P := State.ringOk) h hs ?_
      split
      · next r hr => exact consume_ringOk ((beginRecord_sameReaders hr).ringOk hs) cp
      · exact hs
    | writeProfile cp start count values =>
      rcases writeProfile_cases h with rfl | ⟨st, rfl⟩ | ⟨vs, st, -, -, -, rfl⟩
      · exact hs
      · exact refused cp st
      · exact answered_ringOk (writeRun_ringOk hs vs) cp st
    | _ => exact (notIn rfl hw).elim
  · exact (exec_sameReaders hw h).ringOk hs

/-- Settles O59: by the rows that make records, read them or write the attachment. -/
theorem incidentRingStaysInOrder : Obligations.IncidentRingStaysInOrder := fun _ _ hs h =>
  step_keeps (P := State.ringOk) (fun _ _ h => h) (fun _ _ _ => exec_ringOk) hs h

end Sys2Proof.Machine
end

section
/-! PROOF. The port table stays in order over every command (R2 to R4, R59, R61, R127, R141). -/

namespace Sys2Proof.Machine

open Sys2Proof.Spec

/-! ### One record in order -/

/-- A port record in order, the hold maximum being `hmax`. -/
structure PortRec.Ordered (r : PortRec) (hmax : Nat) : Prop where
  legal : r.legal = true
  backlog : r.backlogOk = true
  timers : r.timersOk
  hold : r.holdOk hmax
  marks : r.marksOk
  bounded : r.bounded

theorem portsOk_iff (s : State) : s.portsOk ↔ (∀ p : Port, s.ports[p].Ordered s.profile.hmax
    ∧ (s.running = false → s.ports[p].mode = .auto → s.ports[p].state = .down)
    ∧ (s.store.condition = .loading → s.ports[p].mode = .auto)) ∧ (s.store.condition = .loading → s.running = false) := by
  refine and_congr_left fun _ => forall_congr' fun p => ?_
  exact ⟨fun ⟨hl, hb, ht, hh, hm, hn, hrest⟩ => ⟨⟨hl, hb, ht, hh, hm, hn⟩, hrest⟩,
    fun ⟨⟨hl, hb, ht, hh, hm, hn⟩, hrest⟩ => ⟨hl, hb, ht, hh, hm, hn, hrest⟩⟩

section
variable {r : PortRec} {hmax : Nat}

/-- Only an AUTO port is in LISTEN, WATCH or CUT (R4). -/
theorem PortRec.Ordered.auto (h : r.Ordered hmax) (hs : r.state = .listen ∨ r.state = .watch ∨ r.state = .cut) :
    r.mode = .auto := by
  have hl := h.legal
  rcases hs with hs | hs | hs <;> cases hm : r.mode <;> simp [PortRec.legal, hm, hs] at hl <;> rfl

/-- A probed AUTO port has a backlog up to 3 (R59). -/
theorem PortRec.Ordered.backlog_le (h : r.Ordered hmax) (hm : r.mode = .auto) (hp : r.state.probed = true) : r.backlog ≤ 3 := by
  have hb := h.backlog
  cases hs : r.state <;> simp [PState.probed, PortRec.backlogOk, hm, hs] at hp hb <;> exact hb

/-- A port that is not AUTO has no backlog (R59). -/
theorem PortRec.Ordered.backlog_zero (h : r.Ordered hmax) (hm : r.mode ≠ .auto) : r.backlog = 0 := by
  have hb := h.backlog
  cases hm' : r.mode <;> simp [PortRec.backlogOk, hm'] at hm hb <;> exact hb

theorem PortRec.Ordered.pinned_state (h : r.Ordered hmax) (hm : r.mode = .pinned) : r.state = .down ∨ r.state = .opened := by
  have hl := h.legal
  cases hs : r.state <;> simp [PortRec.legal, hm, hs] at hl ⊢

theorem PortRec.Ordered.held_state (h : r.Ordered hmax) (hm : r.mode = .held) : r.state = .shut := by
  have hl := h.legal
  cases hs : r.state <;> simp [PortRec.legal, hm, hs] at hl ⊢

/-- The confirm mark is clear where the port is not AUTO or is not probed (R61). -/
theorem PortRec.Ordered.unmarked (h : r.Ordered hmax) (hm : r.mode ≠ .auto ∨ r.state.probed = false) : r.confirm = false := by
  by_contra hc
  obtain ⟨ha, hp, -⟩ := h.marks.2 (Bool.eq_true_of_not_eq_false hc)
  rcases hm with hm | hm
  · exact hm ha
  · exact absurd (hm.symm.trans hp) (by decide)

/-- An AUTO port in a probed state: its backlog up to 3, and 3 where its confirm mark is set. -/
theorem PortRec.Ordered.of_probed (hm : r.mode = .auto) (hp : r.state.probed = true) (hb : r.backlog ≤ 3)
    (ht : r.timersOk) (hh : r.hold = 0) (hl : r.state ≠ .listen → r.listenProbe = none)
    (hc : r.confirm = true → r.backlog = 3) (hn : r.bounded) : r.Ordered hmax := by
  refine ⟨by simp [PortRec.legal, hm], ?_, ht, ⟨hh.trans_le (Nat.zero_le _), fun _ => hh⟩, ⟨hl, fun h => ⟨hm, hp, hc h⟩⟩, hn⟩
  cases hs : r.state <;> simp [PState.probed, PortRec.backlogOk, hm, hs] at hp ⊢ <;> exact hb

/-- The timers of a port whose good-standing timer alone may run. -/
theorem timersOk_opened (hl : r.listenTimer = .stopped) (hr : r.releaseTimer = .stopped) (hg : r.goodTimer.clean = true)
    (ho : r.state ≠ .opened → r.goodTimer = .stopped) : r.timersOk := by
  refine ⟨?_, ?_, hg, fun _ => hl, fun _ => hr, ho⟩
  · rw [hl]; rfl
  · rw [hr]; rfl

theorem timersOk_stopped (hl : r.listenTimer = .stopped) (hr : r.releaseTimer = .stopped) (hg : r.goodTimer = .stopped) :
    r.timersOk := timersOk_opened hl hr (by rw [hg]; rfl) fun _ => hg

/-! ### Entries of states -/

/-- Entry into LISTEN resets all that the state does not keep (R125). -/
theorem PortRec.toListen_ordered (hm : r.mode = .auto) (hb : r.bounded) : r.toListen.Ordered hmax :=
  .of_probed hm rfl (le_refl _) ⟨rfl, rfl, rfl, fun h => absurd rfl h, fun _ => rfl, fun _ => rfl⟩ rfl
    (fun h => absurd rfl h) (fun _ => rfl) hb

theorem PortRec.toDown_ordered (hm : r.mode = .auto) (hb : r.bounded) : r.toDown.Ordered hmax := by
  refine ⟨?_, ?_, timersOk_stopped rfl rfl rfl, ⟨Nat.zero_le _, fun _ => rfl⟩, ⟨fun _ => rfl, nofun⟩, hb⟩
  · simp [PortRec.legal, PortRec.toDown, hm]
  · simp [PortRec.backlogOk, PortRec.toDown, hm]

set_option Elab.async false in
/-- Entry into OPEN from a probed state (R121, R123). -/
theorem PortRec.toOpen_ordered (h : r.Ordered hmax) (hm : r.mode = .auto) (hp : r.state.probed = true) :
    r.toOpen.Ordered hmax := by
  have hs : r.state ≠ .shut := fun hs => by simp [hs, PState.probed] at hp
  exact .of_probed hm rfl (h.backlog_le hm hp) (timersOk_opened rfl rfl rfl fun hs => absurd rfl hs)
    (h.hold.2 fun hns => hs hns.2) (fun _ => rfl) (fun hc => (h.marks.2 hc).2.2) h.bounded

theorem PortRec.toWatch_ordered (h : r.Ordered hmax) (hm : r.mode = .auto) (hs : r.state = .opened) :
    r.toWatch.Ordered hmax := by
  obtain ⟨-, -, -, hl, hr, -⟩ := h.timers
  exact .of_probed hm rfl (le_refl _) (timersOk_stopped (hl (by simp [hs])) (hr (by simp [hs])) rfl)
    (h.hold.2 (by simp [hs])) (fun _ => h.marks.1 (by simp [hs])) (fun _ => rfl) h.bounded

/-- Entry into CUT from a probed state (R131). -/
theorem PortRec.toCut_ordered (h : r.Ordered hmax) (hm : r.mode = .auto) (hp : r.state.probed = true) :
    r.toCut.Ordered hmax := by
  have hs : r.state ≠ .shut := fun hs => by simp [hs, PState.probed] at hp
  refine .of_probed hm rfl (h.backlog_le hm hp) ⟨rfl, ?_, rfl, fun _ => rfl, fun hc => absurd rfl hc, fun _ => rfl⟩
    (h.hold.2 fun hns => hs hns.2) (fun _ => rfl) (fun hc => (h.marks.2 hc).2.2) h.bounded
  change GateTimer.clean (if r.releasable then .started else .stopped) = true
  split <;> rfl

theorem PortRec.toShut_ordered (hm : r.mode = .auto) (hb : r.bounded) (base : Nat) : (r.toShut base hmax).Ordered hmax := by
  refine ⟨?_, ?_, timersOk_stopped rfl rfl rfl, ⟨Nat.min_le_right _ _, fun h => absurd ⟨hm, rfl⟩ h⟩, ⟨fun _ => rfl, nofun⟩,
    hb.1, hb.2.1, Nat.min_le_right _ _⟩
  · simp [PortRec.legal, PortRec.toShut, hm]
  · simp [PortRec.backlogOk, PortRec.toShut, hm]

theorem PortRec.toHeld_ordered (hb : r.bounded) : r.toHeld.Ordered hmax :=
  ⟨rfl, rfl, timersOk_stopped rfl rfl rfl, ⟨Nat.zero_le _, fun _ => rfl⟩, ⟨fun _ => rfl, nofun⟩, hb⟩

theorem PortRec.toPinned_ordered (hb : r.bounded) : r.toPinned.Ordered hmax := by
  unfold PortRec.toPinned
  cases r.linkUp
  · exact ⟨rfl, rfl, timersOk_stopped rfl rfl rfl, ⟨Nat.zero_le _, fun _ => rfl⟩, ⟨fun _ => rfl, nofun⟩, hb⟩
  · exact ⟨rfl, rfl, timersOk_opened rfl rfl rfl fun h => absurd rfl h, ⟨Nat.zero_le _, fun _ => rfl⟩, ⟨fun _ => rfl, nofun⟩, hb⟩

/-- A PINNED port follows its link (R119, R120). -/
theorem PortRec.pinnedLink_ordered (h : r.Ordered hmax) (hm : r.mode = .pinned) (up : Bool) :
    PortRec.Ordered { r with
      state := if up then .opened else .down, goodTimer := if up then .started else .stopped } hmax := by
  have hs := h.pinned_state hm
  obtain ⟨-, -, -, hl, hr, -⟩ := h.timers
  have hlisten : r.listenTimer = .stopped := hl (by rcases hs with hs | hs <;> simp [hs])
  have hrelease : r.releaseTimer = .stopped := hr (by rcases hs with hs | hs <;> simp [hs])
  have hprobe : r.listenProbe = none := h.marks.1 (by rcases hs with hs | hs <;> simp [hs])
  have hhold : r.hold = 0 := h.hold.2 (by simp [hm])
  have hconfirm := h.unmarked (.inl (by simp [hm]))
  have hbacklog := h.backlog_zero (by simp [hm])
  refine ⟨?_, ?_, timersOk_opened hlisten hrelease ?_ ?_, ⟨h.hold.1, fun _ => hhold⟩,
    ⟨fun _ => hprobe, fun hc => absurd (hconfirm.symm.trans hc) (by decide)⟩, h.bounded⟩
  · cases up <;> simp [PortRec.legal, hm]
  · simp [PortRec.backlogOk, hm, hbacklog]
  · cases up <;> rfl
  · cases up <;> simp

/-! ### The engine's start and restart -/

/-- What a port record keeps while the engine is HELD (R141). -/
structure PortRec.Resting (r : PortRec) : Prop where
  listen : r.listenTimer = .stopped
  release : r.releaseTimer = .stopped
  good : r.mode = .held → r.goodTimer = .stopped
  probe : r.listenProbe = none
  unmarked : r.confirm = false
  hold : r.hold = 0
  bounded : r.bounded

theorem PortRec.Ordered.resting (h : r.Ordered hmax) (hm : r.mode = .auto → r.state = .down) : r.Resting := by
  have hs : r.state = .down ∨ r.mode ≠ .auto := by
    by_cases ha : r.mode = .auto
    · exact .inl (hm ha)
    · exact .inr ha
  have hstate : r.state ≠ .listen ∧ r.state ≠ .cut ∧ ¬(r.mode = .auto ∧ r.state = .shut) := by
    refine ⟨fun e => ?_, fun e => ?_, fun ⟨ha, e⟩ => ?_⟩
    · simpa [e] using hm (h.auto (.inl e))
    · simpa [e] using hm (h.auto (.inr (.inr e)))
    · simpa [e] using hm ha
  obtain ⟨-, -, -, hl, hr, hg⟩ := h.timers
  obtain ⟨hlisten, hcut, hshut⟩ := hstate
  refine ⟨hl hlisten, hr hcut, fun e => hg (by simp [h.held_state e]), h.marks.1 hlisten, h.unmarked ?_, h.hold.2 hshut, h.bounded⟩
  rcases hs with hs | hs
  · exact .inr (by rw [hs]; rfl)
  · exact .inl hs

/-- The engine starts from records at rest (R179). -/
theorem PortRec.run_ordered (h : r.Resting) : r.run.Ordered hmax := by
  have marks {x : PortRec} (hp : x.listenProbe = none) (hc : x.confirm = false) : x.marksOk :=
    ⟨fun _ => hp, fun hc' => absurd (hc.symm.trans hc') (by decide)⟩
  unfold PortRec.run
  cases hm : r.mode with
  | auto =>
    dsimp only
    split
    · exact PortRec.toListen_ordered hm h.bounded
    · exact PortRec.toDown_ordered hm h.bounded
  | pinned =>
    dsimp only
    split
    · exact ⟨by simp [PortRec.legal], by simp [PortRec.backlogOk],
        timersOk_opened h.listen h.release rfl fun hs => absurd rfl hs, ⟨h.hold.trans_le (Nat.zero_le _), fun _ => h.hold⟩,
        marks h.probe h.unmarked, h.bounded⟩
    · exact ⟨by simp [PortRec.legal], by simp [PortRec.backlogOk], timersOk_stopped h.listen h.release rfl,
        ⟨h.hold.trans_le (Nat.zero_le _), fun _ => h.hold⟩, marks h.probe h.unmarked, h.bounded⟩
  | held =>
    exact ⟨by simp [PortRec.legal], by simp [PortRec.backlogOk], timersOk_stopped h.listen h.release (h.good hm),
      ⟨Nat.zero_le _, fun _ => rfl⟩, marks h.probe h.unmarked, h.bounded⟩

theorem PortRec.restart_ordered (r : PortRec) (hmax : Nat) : r.restart.Ordered hmax := by
  have timers : r.restart.timersOk := timersOk_stopped rfl rfl rfl
  refine ⟨?_, ?_, timers, ⟨Nat.zero_le _, fun _ => rfl⟩, ⟨fun _ => rfl, nofun⟩, Nat.zero_le _, Nat.zero_le _, Nat.zero_le _⟩
  · unfold PortRec.restart PortRec.legal
    cases r.mode with
    | auto => rfl
    | pinned => cases r.linkUp <;> rfl
    | held => rfl
  · unfold PortRec.restart PortRec.backlogOk
    cases r.mode with
    | auto => rfl
    | pinned => cases r.linkUp <;> rfl
    | held => rfl

theorem PortRec.restart_down (r : PortRec) (hm : r.restart.mode = .auto) : r.restart.state = .down := by
  have hm' : r.mode = .auto := hm
  simp [PortRec.restart, hm']

/-! ### Changes within a state -/

/-- A level within its ceiling (R33, R34). -/
theorem PortRec.meterTo_ordered (h : r.Ordered hmax) (m : MeterProfile) {level : Nat} (hl : level ≤ 65535) :
    (r.meterTo m level).Ordered hmax :=
  ⟨h.legal, h.backlog, h.timers, h.hold, h.marks, hl, h.bounded.2⟩

/-- A score within its ceiling (R103, R107). -/
theorem PortRec.scored_ordered (h : r.Ordered hmax) {n : Nat} (hn : n ≤ 15) :
    PortRec.Ordered { r with echoScore := n } hmax :=
  ⟨h.legal, h.backlog, h.timers, h.hold, h.marks, h.bounded.1, hn, h.bounded.2.2⟩

set_option Elab.async false in
/-- A penalty within its ceiling (R124, R127, R136). -/
theorem PortRec.penalised_ordered (h : r.Ordered hmax) {n : Nat} (hn : n ≤ 7) :
    PortRec.Ordered { r with penalty := n } hmax :=
  ⟨h.legal, h.backlog, h.timers, h.hold, h.marks, h.bounded.1, h.bounded.2.1, hn⟩

/-- A hold no longer than it was, under a maximum no less than it (R118, R127). -/
theorem PortRec.held_ordered (h : r.Ordered hmax) {n limit : Nat} (hn : n ≤ r.hold) (hl : n ≤ limit) :
    PortRec.Ordered { r with hold := n } limit :=
  ⟨h.legal, h.backlog, h.timers, ⟨hl, fun hs => Nat.le_zero.mp (hn.trans (h.hold.2 hs).le)⟩, h.marks, h.bounded⟩

theorem PortRec.Ordered.raise (h : r.Ordered hmax) {limit : Nat} (hl : hmax ≤ limit) : r.Ordered limit :=
  PortRec.held_ordered h (n := r.hold) (le_refl _) (h.hold.1.trans hl)

theorem PortRec.capHold_ordered (h : r.Ordered hmax) (limit : Nat) : (r.capHold limit).Ordered limit := by
  unfold PortRec.capHold
  split
  · exact PortRec.held_ordered h (Nat.min_le_left _ _) (Nat.min_le_right _ _)
  · next hs => exact PortRec.held_ordered h (n := r.hold) (le_refl _) ((h.hold.2 hs).trans_le (Nat.zero_le _))

theorem PortRec.tenth_ordered (h : r.Ordered hmax) : r.tenth.Ordered hmax := by
  unfold PortRec.tenth
  split
  · exact PortRec.held_ordered h (Nat.sub_le _ _) ((Nat.sub_le _ _).trans h.hold.1)
  · exact h

theorem GateTimer.tick_clean {t : GateTimer} (h : t.clean = true) (limit : Nat) : (t.tick limit).clean = true := by
  unfold GateTimer.tick
  split
  · rfl
  · exact h

theorem GateTimer.tick_stopped (limit : Nat) : GateTimer.stopped.tick limit = .stopped := rfl

theorem PortRec.tick_ordered (h : r.Ordered hmax) (pr : Profile) : (r.tick pr).Ordered hmax := by
  obtain ⟨hl, hr, hg, hlisten, hcut, hopen⟩ := h.timers
  refine ⟨h.legal, h.backlog, ⟨GateTimer.tick_clean hl _, GateTimer.tick_clean hr _, GateTimer.tick_clean hg _,
    fun hs => ?_, fun hs => ?_, fun hs => ?_⟩, h.hold, h.marks, h.bounded⟩
  · exact congrArg (GateTimer.tick · _) (hlisten hs)
  · exact congrArg (GateTimer.tick · _) (hcut hs)
  · exact congrArg (GateTimer.tick · _) (hopen hs)

/-- A backlog of a probed AUTO port: up to 3, and 3 where the confirm mark is set (R58 to R61). -/
theorem PortRec.backlogged_ordered (h : r.Ordered hmax) (hm : r.mode = .auto) (hp : r.state.probed = true) {n : Nat} {c : Bool}
    (hn : n ≤ 3) (hc : c = true → n = 3) {probe : Option Word16} (hl : r.state ≠ .listen → probe = none) :
    PortRec.Ordered { r with backlog := n, confirm := c, listenProbe := probe } hmax := by
  have hs : r.state ≠ .shut := fun hs => by simp [hs, PState.probed] at hp
  exact .of_probed hm hp hn h.timers (h.hold.2 fun hns => hs hns.2) hl hc h.bounded

theorem PortRec.accrued_ordered (h : r.Ordered hmax) (ha : r.accrues = true) :
    PortRec.Ordered { r with backlog := min (r.backlog + 1) 3 } hmax := by
  rw [PortRec.accrues, Bool.and_eq_true, decide_eq_true_eq] at ha
  obtain ⟨hm, hp⟩ := ha
  refine PortRec.backlogged_ordered h hm hp (c := r.confirm) (probe := r.listenProbe) (Nat.min_le_right _ _) (fun hc => ?_) h.marks.1
  have := (h.marks.2 hc).2.2
  omega

theorem PortRec.urged_ordered (h : r.Ordered hmax) (confirm : Bool) : (r.urged confirm).Ordered hmax := by
  unfold PortRec.urged
  split
  · next hm =>
    split
    · next hp => exact PortRec.backlogged_ordered h hm hp (le_refl _) (fun _ => rfl) h.marks.1
    · split
      · next hs =>
        refine ⟨by simp [PortRec.legal, hm], by simp [PortRec.backlogOk, hm, hs], h.timers, h.hold, ⟨h.marks.1, fun hc => ?_⟩, h.bounded⟩
        exact absurd ((h.unmarked (.inr (by rw [hs]; rfl))).symm.trans hc) (by decide)
      · exact h
  · exact h
  · exact h

theorem PortRec.served_ordered (h : r.Ordered hmax) (hm : r.mode = .auto) (hp : r.state.probed = true) (sequence : Word16) :
    (r.served sequence).Ordered hmax := by
  refine PortRec.backlogged_ordered (c := false) (probe := if r.purpose = .listen then some sequence else r.listenProbe)
    h hm hp (Nat.zero_le _) nofun fun hs => ?_
  have other : r.purpose ≠ .listen := by
    rw [PortRec.purpose, if_neg fun hc => hs hc.1]
    split
    · decide
    · decide
  rw [if_neg other]
  exact h.marks.1 hs

theorem PortRec.relisten_ordered (h : r.Ordered hmax) (hs : r.state = .listen) : r.relisten.Ordered hmax :=
  PortRec.backlogged_ordered (c := r.confirm) h (h.auto (.inl hs)) (by rw [hs]; rfl) (le_refl _) (fun _ => rfl) fun _ => rfl

set_option Elab.async false in
theorem PortRec.unprobed_ordered (h : r.Ordered hmax) : PortRec.Ordered { r with listenProbe := none } hmax :=
  ⟨h.legal, h.backlog, h.timers, h.hold, ⟨fun _ => rfl, h.marks.2⟩, h.bounded⟩

/-- The release timer runs in CUT alone (R3, R125). -/
theorem PortRec.releaseTimer_ordered (h : r.Ordered hmax) (hs : r.state = .cut) {t : GateTimer} (ht : t.clean = true) :
    PortRec.Ordered { r with releaseTimer := t } hmax := by
  obtain ⟨hl, -, hg, hlisten, -, hopen⟩ := h.timers
  exact ⟨h.legal, h.backlog, ⟨hl, ht, hg, hlisten, fun hc => absurd hs hc, hopen⟩, h.hold, h.marks, h.bounded⟩

theorem PortRec.startRelease_ordered (h : r.Ordered hmax) : r.startRelease.Ordered hmax := by
  unfold PortRec.startRelease
  split
  · next hc => exact PortRec.releaseTimer_ordered h hc.2.1 rfl
  · exact h

theorem PortRec.stopRelease_ordered (h : r.Ordered hmax) : r.stopRelease.Ordered hmax := by
  unfold PortRec.stopRelease
  split
  · next hc => exact PortRec.releaseTimer_ordered h hc.2 rfl
  · exact h

theorem PortRec.calmed_ordered (h : r.Ordered hmax) : r.calmed.Ordered hmax := by
  unfold PortRec.calmed
  split
  · next hc => exact PortRec.toOpen_ordered h hc.1 (by rw [hc.2]; rfl)
  · exact PortRec.startRelease_ordered h

/-- The good-standing timer runs in OPEN alone (R3, R124). -/
theorem PortRec.goodStanding_ordered (h : r.Ordered hmax) (hs : r.state = .opened) :
    PortRec.Ordered { r with penalty := r.penalty - 1, goodTimer := .started } hmax := by
  obtain ⟨hl, hr, -, hlisten, hcut, -⟩ := h.timers
  exact ⟨h.legal, h.backlog, ⟨hl, hr, rfl, hlisten, hcut, fun hc => absurd hs hc⟩, h.hold, h.marks, h.bounded.1, h.bounded.2.1,
    (Nat.sub_le _ _).trans h.bounded.2.2⟩

end

/-! ### The whole table -/

/-- What a change may do to the port table: every record stays in order, and while the engine is HELD no port changes mode or
state. -/
structure State.PortsMove (s t : State) : Prop where
  running : t.running = s.running
  condition : t.store.condition = .loading → s.store.condition = .loading
  ports : ∀ p : Port, (s.ports[p].Ordered s.profile.hmax → t.ports[p].Ordered t.profile.hmax)
    ∧ (s.running = false → t.ports[p].mode = s.ports[p].mode ∧ t.ports[p].state = s.ports[p].state)

theorem State.PortsMove.refl (s : State) : s.PortsMove s := ⟨rfl, fun h => h, fun _ => ⟨fun h => h, fun _ => ⟨rfl, rfl⟩⟩⟩

theorem State.PortsMove.trans {s t u : State} (h : s.PortsMove t) (h' : t.PortsMove u) : s.PortsMove u := by
  refine ⟨h'.running.trans h.running, fun hl => h.condition (h'.condition hl), fun p => ⟨fun hp => (h'.ports p).1 ((h.ports p).1 hp),
    fun hr => ?_⟩⟩
  obtain ⟨hm, hs⟩ := (h.ports p).2 hr
  obtain ⟨hm', hs'⟩ := (h'.ports p).2 (h.running.trans hr)
  exact ⟨hm'.trans hm, hs'.trans hs⟩

theorem State.PortsMove.ite {s t u : State} {c : Prop} [Decidable c] (ht : s.PortsMove t) (hu : s.PortsMove u) :
    s.PortsMove (if c then t else u) := by
  split
  · exact ht
  · exact hu

theorem State.PortsMove.portsOk {s t : State} (h : s.PortsMove t) (hs : s.portsOk) : t.portsOk := by
  rw [portsOk_iff] at hs ⊢
  obtain ⟨hports, hloading⟩ := hs
  rw [h.running]
  refine ⟨fun p => ?_, fun hl => hloading (h.condition hl)⟩
  obtain ⟨hordered, hheld, hauto⟩ := hports p
  refine ⟨(h.ports p).1 hordered, fun hr hm => ?_, fun hl => ?_⟩
  · obtain ⟨em, es⟩ := (h.ports p).2 hr
    exact es.trans (hheld hr (em.symm.trans hm))
  · exact ((h.ports p).2 (hloading (h.condition hl))).1.trans (hauto (h.condition hl))

/-- A change of other parts. -/
theorem portsMove_of_frame {W : List Part} {s t : State} (h : Frame W s t) (hports : .ports ∉ W) (hprofile : .profile ∉ W)
    (hrunning : .running ∉ W) (hstore : .store ∉ W) : s.PortsMove t := by
  refine ⟨h .running hrunning, fun hl => (congrArg StoreRec.condition (h .store hstore)).symm.trans hl, fun p => ?_⟩
  rw [show t.ports = s.ports from h .ports hports, show t.profile = s.profile from h .profile hprofile]
  exact ⟨fun h => h, fun _ => ⟨rfl, rfl⟩⟩

/-- A change of one record within its mode and state. -/
theorem portsMove_updPort (s : State) (p : Port) {f : PortRec → PortRec}
    (hf : (s.port p).Ordered s.profile.hmax → (f (s.port p)).Ordered s.profile.hmax)
    (hm : (f (s.port p)).mode = (s.port p).mode) (hs : (f (s.port p)).state = (s.port p).state) :
    s.PortsMove (s.updPort p f) := by
  refine ⟨rfl, fun h => h, fun q => ?_⟩
  rw [State.updPort_ports, getElem_set_fin]
  split
  · next hq =>
    obtain rfl := hq
    exact ⟨hf, fun _ => ⟨hm, hs⟩⟩
  · exact ⟨fun h => h, fun _ => ⟨rfl, rfl⟩⟩

set_option Elab.async false in
/-- A change of one record while the engine is RUNNING. -/
theorem portsMove_running {s : State} (hr : s.running = true) (p : Port) {f : PortRec → PortRec}
    (hf : (s.port p).Ordered s.profile.hmax → (f (s.port p)).Ordered s.profile.hmax) : s.PortsMove (s.updPort p f) := by
  refine ⟨rfl, fun h => h, fun q => ?_⟩
  rw [State.updPort_ports, getElem_set_fin]
  refine ⟨?_, fun hh => absurd (hr.symm.trans hh) (by decide)⟩
  split
  · next hq =>
    obtain rfl := hq
    exact hf
  · exact fun h => h

end Sys2Proof.Machine
end

section
/-! PROOF. The rows that write the port table, each keeping it in order (R2 to R4, R59, R61, R127, R141). -/

namespace Sys2Proof.Machine

open Sys2Proof.Spec

/-! ### Shared changes -/

/-- A change of records within their modes and states, the hold maximum, the engine and the store as they were. -/
theorem portsMove_records {s t : State} (hr : t.running = s.running) (hc : t.store = s.store) (hp : t.profile = s.profile)
    (h : ∀ p : Port, (s.ports[p].Ordered s.profile.hmax → t.ports[p].Ordered s.profile.hmax)
      ∧ (s.running = false → t.ports[p].mode = s.ports[p].mode ∧ t.ports[p].state = s.ports[p].state)) : s.PortsMove t := by
  refine ⟨hr, fun hl => ?_, fun p => ?_⟩
  · rwa [hc] at hl
  · rw [hp]
    exact h p

theorem portsMove_noteAttempts (before s : State) : s.PortsMove (noteAttempts before s) :=
  portsMove_of_frame (frame_noteAttempts s before) (notIn rfl) (notIn rfl) (notIn rfl) (notIn rfl)

theorem portsMove_census (s : State) (k : CensusKind) (p : Option Port) (n : Nat) : s.PortsMove (s.census k p n) :=
  portsMove_of_frame (frame_census s k p n) (notIn rfl) (notIn rfl) (notIn rfl) (notIn rfl)

theorem portsMove_hand (s : State) (p : Option Port) (k : GateReqKind) : s.PortsMove (s.hand p k) :=
  portsMove_of_frame (frame_hand s p k) (notIn rfl) (notIn rfl) (notIn rfl) (notIn rfl)

theorem portsMove_handUrgent (s : State) (p : Port) (c : Bool) : s.PortsMove (s.handUrgent p c) :=
  portsMove_of_frame (frame_handUrgent s p c) (notIn rfl) (notIn rfl) (notIn rfl) (notIn rfl)

theorem portsMove_answer (s : State) (cp : CtlPort) (st : Status) (bytes : List Byte) (a : Answer) :
    s.PortsMove (s.answer cp st bytes a) :=
  portsMove_of_frame (frame_answer s cp st bytes a) (notIn rfl) (notIn rfl) (notIn rfl) (notIn rfl)

theorem portsMove_record (s : State) (r : IncidentReq) : s.PortsMove (s.record r) :=
  portsMove_of_frame (frame_record s r) (notIn rfl) (notIn rfl) (notIn rfl) (notIn rfl)

theorem portsMove_gateReqs (s : State) (reqs : List GateReq) : s.PortsMove { s with gateReqs := reqs } :=
  portsMove_records rfl rfl rfl fun _ => ⟨fun h => h, fun _ => ⟨rfl, rfl⟩⟩

theorem portsMove_report (s : State) (p : Port) (r : IncidentReq) : s.PortsMove (s.report p r) := by
  rcases report_cases s p r with ⟨-, h⟩ | ⟨-, h⟩ <;> rw [h]
  · exact .refl s
  · exact (portsMove_updPort s p (fun h => ⟨h.legal, h.backlog, h.timers, h.hold, h.marks, h.bounded⟩) rfl rfl).trans
      (portsMove_record _ r)

theorem portsMove_setLastCause (s : State) (p : Port) (c : Cause) : s.PortsMove (s.setLastCause p c) :=
  portsMove_updPort s p (fun h => ⟨h.legal, h.backlog, h.timers, h.hold, h.marks, h.bounded⟩) rfl rfl

/-- A port of a RUNNING engine enters LISTEN. -/
theorem portsMove_listen {s : State} (hr : s.running = true) {p : Port} (hm : (s.port p).mode = .auto) :
    s.PortsMove (s.listen p) :=
  ((portsMove_running hr p fun h => PortRec.toListen_ordered hm h.bounded).trans (portsMove_handUrgent _ p false)).trans
    (portsMove_gateReqs _ _)

/-! ### Rows of probes and returns -/

theorem portsMove_unsent (s : State) (e : ProbeEntry) : s.PortsMove (s.unsent e) := by
  have probed : s.PortsMove (if s.listenEntry e then s.updPort e.egress PortRec.relisten else s) := by
    split
    · next hl =>
      rw [State.listenEntry, decide_eq_true_eq] at hl
      exact portsMove_updPort s _ (fun h => PortRec.relisten_ordered h hl.2.1) rfl rfl
    · exact .refl s
  exact (probed.trans (portsMove_noteAttempts _ _)).trans
    (portsMove_of_frame (frame_entryFreed _) (notIn rfl) (notIn rfl) (notIn rfl) (notIn rfl))

theorem portsMove_probes (s : State) (ps : List ProbeEntry) : s.PortsMove { s with probes := ps } :=
  portsMove_of_frame (frame_probes s ps) (notIn rfl) (notIn rfl) (notIn rfl) (notIn rfl)

set_option Elab.async false in
theorem portsMove_retireUnsent (s : State) (sequence : Word16) : s.PortsMove (s.retireUnsent sequence) := by
  unfold State.retireUnsent
  split
  · exact .refl s
  · exact (portsMove_probes s _).trans (portsMove_unsent _ _)

theorem portsMove_retireSent (s : State) (e : ProbeEntry) : s.PortsMove (s.retireSent e) := by
  unfold State.retireSent
  split
  · split
    · next hl =>
      rw [State.listenEntry, decide_eq_true_eq] at hl
      split
      · exact (portsMove_updPort s _ (fun h => PortRec.unprobed_ordered h) rfl rfl).trans (portsMove_hand _ _ _)
      · exact (portsMove_updPort s _ (fun h => PortRec.relisten_ordered h hl.2.1) rfl rfl).trans (portsMove_noteAttempts _ _)
    · exact .refl s
  · split
    · exact portsMove_handUrgent s _ _
    · exact .refl s

theorem portsMove_evidence (s : State) (p : Port) (partner : Option Port) : s.PortsMove (s.evidence p partner) := by
  have scored : s.PortsMove (s.updPort p fun r => { r with echoScore := min ((s.port p).echoScore + 1) 15 }) :=
    portsMove_updPort s p (fun h => PortRec.scored_ordered h (Nat.min_le_right _ _)) rfl rfl
  unfold State.evidence
  split
  · exact .refl s
  · dsimp only
    have told := scored.trans (.ite (c := (s.port p).echoScore = 0) (portsMove_hand _ (some p) .echoFromZero) (.refl _))
    have asked := told.trans (portsMove_handUrgent _ p true)
    split
    · exact asked.trans (portsMove_hand _ _ _)
    · exact asked

theorem portsMove_table (s : State) (t : List (Nat × FpEntry)) : s.PortsMove { s with table := t } :=
  portsMove_of_frame (frame_table s t) (notIn rfl) (notIn rfl) (notIn rfl) (notIn rfl)

theorem portsMove_echoEnter (s : State) (x : Slot) : s.PortsMove (s.echoEnter x) := by
  have put (t : List (Nat × FpEntry)) := portsMove_table s t
  unfold State.echoEnter
  dsimp only
  split
  · split
    · split
      · exact ((put _).trans (portsMove_evidence _ _ _)).trans (portsMove_census _ _ _ _)
      · exact put _
    · exact (((put _).trans (portsMove_evidence _ _ _)).trans (portsMove_evidence _ _ _)).trans (portsMove_census _ _ _ _)
  · split
    · exact (put _).trans (portsMove_census _ _ _ _)
    · exact put _

theorem portsMove_conclude (s : State) (w : Working) : s.PortsMove (s.conclude w) := by
  unfold State.conclude
  split
  · exact portsMove_echoEnter s _
  · exact (portsMove_census s _ _ _).trans (portsMove_echoEnter _ _)
  · unfold State.foreignProbe
    dsimp only
    split
    · exact portsMove_census s _ _ _
    · exact (portsMove_census s _ _ _).trans (portsMove_hand _ _ _)
  · exact portsMove_census s _ _ _
  · exact (portsMove_census s _ _ _).trans (portsMove_hand _ _ _)

theorem portsMove_serve {s : State} {t : TapId} {p : Port} (h : s.servable t p = true) : s.PortsMove (s.serve t p) := by
  obtain ⟨-, hm, hp, -⟩ := (eligibleOn_iff s t p).mp ((servable_iff s t p).mp h).1
  have served : s.PortsMove (s.updPort p (·.served s.nextSequence)) :=
    portsMove_updPort s p (fun h => PortRec.served_ordered h hm hp _) rfl rfl
  unfold State.serve
  split
  · exact .refl s
  · exact ⟨served.running, served.condition, served.ports⟩

theorem portsMove_attempt (s : State) (t : TapId) : s.PortsMove (s.attempt t) := by
  have spent := frame_updTap s t fun x => { x with attempts := x.attempts - 1 }
  have noted : s.PortsMove _ := portsMove_of_frame spent (notIn rfl) (notIn rfl) (notIn rfl) (notIn rfl)
  unfold State.attempt
  split
  · exact noted
  · next p hp => exact portsMove_serve (arbiter_servable (attemptFinds_serve hp).1)
  · next p _ =>
    have counted := noted.trans (portsMove_census _ .probesDeferred (some p) 1)
    exact ⟨counted.running, counted.condition, counted.ports⟩

/-! ### Rows of the meters and of time -/

theorem portsMove_portArrival (s : State) (p : Port) (w : Nat) : s.PortsMove (s.portArrival p w) :=
  (portsMove_updPort s p (fun h => PortRec.meterTo_ordered h _ (Nat.min_le_right _ _)) rfl rfl).trans (portsMove_gateReqs _ _)

theorem portsMove_classArrival (s : State) (p : Port) (w : Nat) : s.PortsMove (s.classArrival p w) :=
  portsMove_of_frame (frame_classArrival s p w) (notIn rfl) (notIn rfl) (notIn rfl) (notIn rfl)

theorem portsMove_accept (s : State) (t : TapId) (f : TapFrame) (order : MeterOrder) (p : Port) :
    s.PortsMove (s.accept t f order p) := by
  have counted := (portsMove_census s .floodFrames (some p) 1).trans
    (portsMove_census _ .floodUnits (some p) (weight (f.length - 4)))
  have metered (u : State) (w : Nat) : u.PortsMove (u.arrival order p w) := by
    cases order with
    | portsFirst => exact (portsMove_portArrival u p w).trans (portsMove_classArrival _ p w)
    | classFirst => exact (portsMove_classArrival u p w).trans (portsMove_portArrival _ p w)
  have offered (u : State) : u.PortsMove (u.offer t f p) :=
    portsMove_of_frame (frame_offer u t f p) (notIn rfl) (notIn rfl) (notIn rfl) (notIn rfl)
  exact .ite ((counted.trans (metered _ _)).trans (offered _)) counted

theorem portsMove_drainPorts (s : State) : s.PortsMove s.drainPorts := by
  have drained := frame_drainPorts s
  refine portsMove_records (s := s) (t := s.drainPorts) (drained .running (notIn rfl)) (drained .store (notIn rfl))
    (drained .profile (notIn rfl)) fun p => ?_
  have metered : s.drainPorts.ports[p]
      = s.ports[p].meterTo (s.profile.meterOf p) (s.ports[p].level - (s.profile.meterOf p).d) := getElem_ofFn_fin _ p
  rw [metered]
  exact ⟨fun h => PortRec.meterTo_ordered h _ ((Nat.sub_le _ _).trans h.bounded.1), fun _ => ⟨rfl, rfl⟩⟩

theorem portsMove_drain (s : State) (order : MeterOrder) : s.PortsMove (s.drain order) := by
  have drained (u : State) : u.PortsMove u.drainClass :=
    portsMove_of_frame (frame_drainClass u) (notIn rfl) (notIn rfl) (notIn rfl) (notIn rfl)
  cases order with
  | portsFirst => exact (portsMove_drainPorts s).trans (drained _)
  | classFirst => exact (drained s).trans (portsMove_drainPorts _)

theorem portsMove_beginTick (s : State) : s.PortsMove s.beginTick := by
  have condition : s.beginTick.store.condition = s.store.condition := by
    unfold State.beginTick
    split <;> rfl
  refine ⟨State.beginTick_running s, fun hl => condition.symm.trans hl, fun p => ?_⟩
  rw [State.beginTick_profile]
  unfold State.beginTick
  split
  · rw [State.tickTimers, getElem_ofFn_fin]
    exact ⟨fun h => PortRec.tick_ordered h _, fun _ => ⟨rfl, rfl⟩⟩
  · exact ⟨fun h => h, fun _ => ⟨rfl, rfl⟩⟩

set_option Elab.async false in
theorem portsMove_tickBegun (s : State) (b : Bool) : s.PortsMove { s with tickBegun := b } :=
  portsMove_of_frame (frame_tickBegun s b) (notIn rfl) (notIn rfl) (notIn rfl) (notIn rfl)

theorem frame_accrue (s : State) (slot : Fin 16) : Frame [.ports] s (s.accrue slot) := fun P hP => by
  cases P <;> simp [State.agree, State.accrue] at hP ⊢

theorem portsMove_accrue (s : State) (slot : Fin 16) : s.PortsMove (s.accrue slot) := by
  have kept := frame_accrue s slot
  refine portsMove_records (s := s) (t := s.accrue slot) (kept .running (notIn rfl)) (kept .store (notIn rfl))
    (kept .profile (notIn rfl)) fun p => ?_
  have accrued : (s.accrue slot).ports[p] = if s.ports[p].accrues && decide ((s.profile.portBytes[p]).slot = slot) then
      { s.ports[p] with backlog := min (s.ports[p].backlog + 1) 3 } else s.ports[p] := getElem_ofFn_fin _ p
  rw [accrued]
  split
  · next ha =>
    rw [Bool.and_eq_true] at ha
    exact ⟨fun h => PortRec.accrued_ordered h ha.1, fun _ => ⟨rfl, rfl⟩⟩
  · exact ⟨fun h => h, fun _ => ⟨rfl, rfl⟩⟩

/-! ### Rows of the poll lines -/

theorem portsMove_placeLink (s : State) (p : Port) (up : Bool) : s.PortsMove (s.placeLink p up) := by
  have placed : s.PortsMove (s.updPort p fun r =>
      { r with linkUp := up, lastLinkUp := if up then some s.msTime else r.lastLinkUp }) :=
    portsMove_updPort s p (fun h => ⟨h.legal, h.backlog, h.timers, h.hold, h.marks, h.bounded⟩) rfl rfl
  unfold State.placeLink
  exact .ite (.refl s) (.ite (placed.trans (portsMove_hand _ _ _)) placed)

/-- A fold of changes of the port table. -/
theorem portsMove_foldl {α : Type} {f : State → α → State} (hf : ∀ (s : State) (x : α), s.PortsMove (f s x)) (xs : List α) (s : State) :
    s.PortsMove (xs.foldl f s) := by
  induction xs generalizing s with
  | nil => exact .refl s
  | cons x xs ih => exact (hf s x).trans (ih _)

theorem portsMove_placeLinks (s : State) (l : TapId) (links : BitVec 32) : s.PortsMove (s.placeLinks l links) := by
  unfold State.placeLinks
  refine portsMove_foldl (fun s f => ?_) _ s
  split
  · exact .refl s
  · exact portsMove_placeLink s _ _

theorem portsMove_deliver (s : State) (samples : List (Option Port × GateCode)) : s.PortsMove (s.deliver samples) := by
  unfold State.deliver
  refine portsMove_foldl (fun s x => ?_) samples s
  split
  · exact portsMove_updPort s _ (fun h => ⟨h.legal, h.backlog, h.timers, h.hold, h.marks, h.bounded⟩) rfl rfl
  · exact .refl s

/-! ### Causes and link changes -/

section
variable {s : State} (hr : s.running = true) (p : Port)
include hr

theorem portsMove_takeLinkUp : s.PortsMove (s.takeLinkUp p) := by
  unfold State.takeLinkUp
  split
  · next hm => exact .ite ((portsMove_listen hr hm).trans (portsMove_noteAttempts _ _)) (.refl s)
  · next hm => exact portsMove_running hr p fun h => PortRec.pinnedLink_ordered h hm true
  · exact .refl s

theorem portsMove_takeLinkDown : s.PortsMove (s.takeLinkDown p) := by
  unfold State.takeLinkDown
  split
  · next hm => exact .ite (.refl s) (portsMove_running hr p fun h => PortRec.toDown_ordered hm h.bounded)
  · next hm => exact portsMove_running hr p fun h => PortRec.pinnedLink_ordered h hm false
  · exact .refl s

theorem portsMove_takeWatch : s.PortsMove (s.takeWatch p) := by
  unfold State.takeWatch
  split
  · next hc => exact (portsMove_running hr p fun h => PortRec.toWatch_ordered h hc.1 hc.2).trans (portsMove_noteAttempts _ _)
  · exact .refl s

/-- The states that CUT and SHUT close are probed ones (R130). -/
theorem portsMove_applyAction (hm : s.ports[p].mode = .auto) (c : LadderCause) (x : CauseParts) (a : Action) :
    s.PortsMove (s.applyAction p c x a) := by
  cases a with
  | ignore => exact .refl s
  | report => exact portsMove_report s p _
  | cut =>
    simp only [State.applyAction]
    split
    · next hc =>
      have hp : s.ports[p].state.probed = true := by
        revert hc
        cases s.ports[p].state <;> decide
      exact (portsMove_running hr p fun h => PortRec.toCut_ordered h hm hp).trans (portsMove_record _ _)
    · exact portsMove_report s p _
  | shut =>
    simp only [State.applyAction]
    split
    · exact (portsMove_running hr p fun h => PortRec.toShut_ordered hm h.bounded _).trans (portsMove_record _ _)
    · exact portsMove_report s p _

theorem portsMove_applyCause (c : LadderCause) (x : CauseParts) : s.PortsMove (s.applyCause p c x) := by
  have named := portsMove_setLastCause s p (.ladder c)
  unfold State.applyCause
  split
  · exact .refl s
  · exact .refl s
  · exact named.trans (portsMove_report _ p _)
  · next hm _ =>
    refine named.trans (portsMove_applyAction (s := s.setLastCause p (.ladder c)) hr p ?_ c x _)
    rw [State.setLastCause, State.updPort_ports, getElem_set_fin, if_pos rfl]
    exact hm

omit hr in
theorem portsMove_takePinnedLoop (q : Port) : s.PortsMove (s.takePinnedLoop p q) := by
  unfold State.takePinnedLoop
  exact .ite (.refl s) ((portsMove_setLastCause s p _).trans (portsMove_report _ p _))

/-! ### Manual changes -/

omit hr in
/-- Two changes of one record are one change. -/
theorem State.updPort_updPort (f g : PortRec → PortRec) : (s.updPort p f).updPort p g = s.updPort p fun r => g (f r) := by
  have read : (s.updPort p f).ports[p] = f s.ports[p] := by rw [State.updPort_ports, getElem_set_fin, if_pos rfl]
  rw [State.updPort, read]
  simp only [State.updPort, Vector.set_set]

/-- The port becomes AUTO and enters LISTEN or DOWN by its link, as one change of its record (R136, R140). -/
theorem portsMove_listenOrDown : s.PortsMove (s.listenOrDown p) := by
  have listened : s.PortsMove (s.updPort p fun r => PortRec.toListen { r with mode := .auto, confirm := false }) :=
    portsMove_running hr p fun h => PortRec.toListen_ordered rfl h.bounded
  have downed : s.PortsMove (s.updPort p fun r => PortRec.toDown { r with mode := .auto, confirm := false }) :=
    portsMove_running hr p fun h => PortRec.toDown_ordered rfl h.bounded
  unfold State.listenOrDown State.listen
  dsimp only
  rw [State.updPort_updPort, State.updPort_updPort]
  exact .ite ((listened.trans (portsMove_handUrgent _ p false)).trans (portsMove_gateReqs _ _)) downed

set_option Elab.async false in
theorem portsMove_releasePort : s.PortsMove (s.releasePort p) := by
  unfold State.releasePort
  split
  · next hm => exact .ite (portsMove_listen hr hm) (.refl s)
  · exact portsMove_listenOrDown hr p
  · exact .refl s

omit hr in
theorem portsMove_manual {t : State} (h : s.PortsMove t) (before : State) (a : IncAction) :
    s.PortsMove (State.manual before t p a) := by
  rcases manual_cases before t p a with h' | h' <;> rw [h']
  · exact h
  · exact h.trans (portsMove_record _ _)

theorem portsMove_manualRelease (forgive : Bool) (a : IncAction) : s.PortsMove (s.manualRelease p forgive a) := by
  refine portsMove_manual p ((portsMove_releasePort hr p).trans ?_) s a
  refine portsMove_updPort _ p (fun h => PortRec.penalised_ordered h ?_) rfl rfl
  split
  · exact Nat.zero_le _
  · exact h.bounded.2.2

theorem portsMove_manualReleaseAll (forgive : Bool) : s.PortsMove (s.manualReleaseAll forgive) := by
  have all (ps : List Port) : s.PortsMove (ps.foldl (fun s p => s.manualRelease p forgive .releaseAll) s) := by
    induction ps generalizing s with
    | nil => exact .refl s
    | cons p ps ih =>
      have released := portsMove_manualRelease hr p forgive .releaseAll
      exact released.trans (ih (released.running.trans hr))
  exact all allPorts

theorem portsMove_manualHeld : s.PortsMove (s.manualHeld p) :=
  .ite (.refl s) (portsMove_manual p (portsMove_running hr p fun h => PortRec.toHeld_ordered h.bounded) s _)

theorem portsMove_manualPinned : s.PortsMove (s.manualPinned p) :=
  .ite (.refl s) (portsMove_manual p (portsMove_running hr p fun h => PortRec.toPinned_ordered h.bounded) s _)

theorem portsMove_manualAuto : s.PortsMove (s.manualAuto p) :=
  .ite (.refl s) (portsMove_manual p (portsMove_listenOrDown hr p) s _)

end

/-! ### Writes of the profile -/

/-- The hold maximum is brought down by its own write alone (R127). -/
theorem Profile.write_hmax_le (pr : Profile) {f : FieldId} (h : f ≠ .hmax) (v : Nat) : pr.hmax ≤ (pr.write f v).hmax := by
  cases f with
  | hmax => exact absurd rfl h
  | hb => exact Nat.le_max_left _ _
  | _ => exact le_refl _

theorem portsMove_writeField {s t : State} {f : FieldId} {v : Nat} (h : s.writeField f v = some t) : s.PortsMove t := by
  have raised {u : State} (hr : u.running = s.running) (hc : u.store = s.store) (hp : u.ports = s.ports)
      (hm : s.profile.hmax ≤ u.profile.hmax) : s.PortsMove u := by
    refine ⟨hr, fun hl => ?_, fun p => ?_⟩
    · rwa [hc] at hl
    · rw [hp]
      exact ⟨fun h => h.raise hm, fun _ => ⟨rfl, rfl⟩⟩
  by_cases hf : f = .hmax
  · subst hf
    obtain rfl := Option.some.inj h
    refine ⟨rfl, fun hl => hl, fun p => ?_⟩
    dsimp only
    rw [getElem_ofFn_fin]
    refine ⟨fun h => PortRec.capHold_ordered h _, fun _ => ?_⟩
    unfold PortRec.capHold
    split <;> exact ⟨rfl, rfl⟩
  have kept := Profile.write_hmax_le s.profile hf v
  cases f with
  | hmax => exact absurd rfl hf
  | window i part =>
    obtain ⟨w, -, rfl⟩ := Option.map_eq_some_iff.mp h
    refine ⟨rfl, fun hl => hl, fun p => ?_⟩
    rw [State.remap, getElem_ofFn_fin]
    split
    · exact ⟨fun h => h, fun _ => ⟨rfl, rfl⟩⟩
    · exact ⟨fun h => ⟨h.legal, h.backlog, h.timers, h.hold, h.marks, h.bounded⟩, fun _ => ⟨rfl, rfl⟩⟩
  | cp1Attached =>
    obtain rfl := Option.some.inj h
    have moved := frame_setAttached s (s.profile.write .cp1Attached v).cp1Attached
    refine raised (moved .running (notIn rfl)) (moved .store (notIn rfl)) (moved .ports (notIn rfl)) ?_
    rw [State.setAttached_profile]
  | _ =>
    obtain rfl := Option.some.inj h
    exact raised rfl rfl rfl kept

theorem portsMove_writeRun (s : State) (vs : List (FieldId × Nat)) : s.PortsMove (s.writeRun vs).1 := by
  induction vs generalizing s with
  | nil => exact .refl s
  | cons x rest ih =>
    obtain ⟨f, v⟩ := x
    simp only [State.writeRun]
    split
    · exact .refl s
    · next t ht => exact (portsMove_writeField ht).trans (ih t)

/-! ### Start, restart and load -/

/-- The engine starts from a table at rest, the store not LOADING (R179). -/
theorem becomeRunning_portsOk {s : State} (h : ∀ p : Port, s.ports[p].Resting) (hl : s.store.condition ≠ .loading) :
    s.becomeRunning.portsOk := by
  refine (portsOk_iff _).mpr ⟨fun p => ⟨?_, nofun, fun hc => absurd hc hl⟩, fun hc => absurd hc hl⟩
  have started : s.becomeRunning.ports[p] = s.ports[p].run := getElem_ofFn_fin _ p
  rw [started]
  exact PortRec.run_ordered (h p)

/-- A HELD engine's table is at rest. -/
theorem resting_of_portsOk {s : State} (h : s.portsOk) (hr : s.running = false) (p : Port) : (s.port p).Resting := by
  obtain ⟨hordered, hdown, -⟩ := ((portsOk_iff s).mp h).1 p
  exact hordered.resting (hdown hr)

theorem restart_portsOk {s : State} (hl : s.store.condition ≠ .loading) : s.restart.portsOk := by
  have condition : s.restart.store = s.store := frame_restart s .store (notIn rfl)
  refine (portsOk_iff _).mpr ⟨fun p => ?_, fun _ => rfl⟩
  have restarted : s.restart.ports[p] = s.ports[p].restart := getElem_ofFn_fin _ p
  rw [restarted, condition]
  exact ⟨PortRec.restart_ordered _ _, fun _ => PortRec.restart_down _, fun hc => absurd hc hl⟩

theorem restartEngine_portsOk {s : State} (hl : s.store.condition ≠ .loading) (hold : Bool) : (s.restartEngine hold).portsOk := by
  have restarted := restart_portsOk hl
  have condition : s.restart.store = s.store := frame_restart s .store (notIn rfl)
  unfold State.restartEngine
  split
  · exact restarted
  · refine becomeRunning_portsOk (fun p => resting_of_portsOk restarted rfl p) ?_
    rwa [condition]

set_option Elab.async false in
/-- A port of a store that is LOADING rests in DOWN, whatever mode and link it takes (R178, R179). -/
theorem PortRec.Ordered.loaded {r : PortRec} {hmax : Nat} (h : r.Ordered hmax) (hs : r.state = .down) (m : Mode) (up : Bool) :
    PortRec.Resting { r with mode := m, linkUp := up } := by
  obtain ⟨-, -, -, hl, hr, hg⟩ := h.timers
  exact ⟨hl (by simp [hs]), hr (by simp [hs]), fun _ => hg (by simp [hs]), h.marks.1 (by simp [hs]),
    h.unmarked (.inr (by rw [hs]; rfl)), h.hold.2 (by simp [hs]), h.bounded⟩

end Sys2Proof.Machine
end

section
/-! PROOF. Every command keeps the port table in order (R2 to R4, R59, R61, R127, R141). -/

namespace Sys2Proof.Machine

open Sys2Proof.Spec

/-! ### The end of the power-on load (R16, R178, R179) -/

/-- The state that the engine starts from at the end of a load. -/
def State.endedLoad (s : State) (acked : List Byte) : State :=
  ((s.stored acked).raiseAttached .storeStatus).takeModes.setAttached (s.loaded acked).1.cp1Attached

theorem endLoad_eq_start (s : State) (acked : List Byte) : s.endLoad acked = (s.endedLoad acked).becomeRunning := rfl

theorem endedLoad_store (s : State) (acked : List Byte) : (s.endedLoad acked).store = { s.store with
    condition := .ready, loadResult := judgeImage acked, windowConflict := (s.loaded acked).2 } :=
  frame_setAttached _ _ .store (notIn rfl)

/-- Each port takes the mode of its per-port byte, and loses its link where its reverse mapping changes (R16, R179). -/
theorem endedLoad_port (s : State) (acked : List Byte) (p : Port) : (s.endedLoad acked).ports[p] = { s.ports[p] with
    mode := ((s.loaded acked).1.portBytes[p]).mode
    linkUp := s.ports[p].linkUp && decide (s.profile.reverse p = (s.loaded acked).1.reverse p) } := by
  have kept : (s.endedLoad acked).ports = ((s.stored acked).raiseAttached .storeStatus).takeModes.ports :=
    frame_setAttached _ _ .ports (notIn rfl)
  have remapped : (s.stored acked).ports[p] = if s.profile.reverse p = (s.loaded acked).1.reverse p then s.ports[p]
      else { s.ports[p] with linkUp := false } := getElem_ofFn_fin _ p
  have moded : ((s.stored acked).raiseAttached .storeStatus).takeModes.ports[p] = { (s.stored acked).ports[p] with
      mode := ((s.loaded acked).1.portBytes[p]).mode } := getElem_ofFn_fin _ p
  rw [kept, moded, remapped]
  by_cases h : s.profile.reverse p = (s.loaded acked).1.reverse p
  · rw [if_pos h, decide_eq_true h, Bool.and_true]
  · rw [if_neg h, decide_eq_false h, Bool.and_false]

theorem endLoad_portsOk {s : State} (hs : s.portsOk) (hl : s.store.condition = .loading) (acked : List Byte) :
    (s.endLoad acked).portsOk := by
  obtain ⟨hports, hrunning⟩ := (portsOk_iff s).mp hs
  rw [endLoad_eq_start]
  refine becomeRunning_portsOk (fun p => ?_) ?_
  · obtain ⟨hordered, hdown, hauto⟩ := hports p
    rw [endedLoad_port]
    exact hordered.loaded (hdown (hrunning hl) (hauto hl)) _ _
  · rw [endedLoad_store]
    exact nofun

/-! ### Rows -/

theorem portsMove_takeRequest {s : State} {want : GateReq → Bool} {turn : Nat} {act : State → GateReqKind → State}
    (h : ∀ (t : State) (k : GateReqKind), t.running = true → t.PortsMove (act t k)) :
    s.PortsMove (s.takeRequest want turn act) := by
  rcases takeRequest_cases s want turn act with h' | ⟨r, rest, hr, -, h'⟩ <;> rw [h']
  · exact .refl s
  · exact (portsMove_gateReqs s rest).trans (h _ _ hr)

/-- A gate-changing command runs on a RUNNING engine alone (R173). -/
theorem portsMove_gateCommand {cp : CtlPort} {s run u : State} {closed badArg portClosed : Bool}
    (h : command cp s (gateChecks s cp closed badArg portClosed) run = .next u) (hrun : s.running = true → s.PortsMove run) :
    s.PortsMove u := by
  rcases command_cases h with ⟨-, rfl⟩ | ⟨st, -, rfl⟩ | ⟨hnone, rfl⟩
  · exact .refl _
  · exact portsMove_answer s cp st _ _
  · have hr := firstFailure_none.mp hnone (!s.running, .busy) (by simp [gateChecks])
    exact hrun (by simpa using hr)

section
variable {s u : State}

theorem portsMove_tapLinkDown {t : TapId} (h : exec (.tapLinkDown t) s = .next u) : s.PortsMove u := by
  refine keeps_powered (P := s.PortsMove) h (.refl s) (.ite ?_ (.refl s))
  have lost : s.PortsMove (s.updTap t TapRec.lost) :=
    portsMove_of_frame (frame_updTap s t _) (notIn rfl) (notIn rfl) (notIn rfl) (notIn rfl)
  have told (u : State) : u.PortsMove (u.raiseAttached .tapDown) :=
    portsMove_of_frame (frame_raiseAttached u _) (notIn rfl) (notIn rfl) (notIn rfl) (notIn rfl)
  exact (lost.trans (portsMove_foldl (fun s (q : TxProbe) => portsMove_retireUnsent s q.sequence) _ _)).trans (told _)

set_option Elab.async false in
theorem portsMove_tapFrame {t : TapId} {f : TapFrame} {order : MeterOrder} (h : exec (.tapFrame t f order) s = .next u) :
    s.PortsMove u := by
  have counted (g : TapRec → TapRec) : s.PortsMove (s.updTap t g) :=
    portsMove_of_frame (frame_updTap s t g) (notIn rfl) (notIn rfl) (notIn rfl) (notIn rfl)
  refine keeps_powered (P := s.PortsMove) h (.refl s) (.ite ?_ (.refl s))
  split
  · exact portsMove_census s _ _ _
  · exact portsMove_census s _ _ _
  · exact counted _
  · exact counted _
  · exact portsMove_accept s t f order _

theorem portsMove_analysisTake (h : exec .analysisTake s = .next u) : s.PortsMove u := by
  refine keeps_powered (P := s.PortsMove) h (.refl s) ?_
  have freed : s.PortsMove { s with analysing := none } := ⟨rfl, fun hl => hl, fun _ => ⟨fun h => h, fun _ => ⟨rfl, rfl⟩⟩⟩
  split
  · exact portsMove_of_frame (frame_takeFrame s) (notIn rfl) (notIn rfl) (notIn rfl) (notIn rfl)
  · exact freed.trans (portsMove_conclude _ _)

theorem portsMove_msTick {order : MeterOrder} (h : exec (.msTick order) s = .next u) : s.PortsMove u := by
  refine keeps_powered (P := s.PortsMove) h (.refl s) ?_
  have begun : s.PortsMove (if s.tickBegun then { s with tickBegun := false } else s.beginTick) :=
    .ite (portsMove_tickBegun s false) (portsMove_beginTick s)
  have swept (v : State) : v.PortsMove v.sweepVisit :=
    portsMove_of_frame (frame_sweepVisit v) (notIn rfl) (notIn rfl) (notIn rfl) (notIn rfl)
  exact .ite ((begun.trans (portsMove_drain _ order)).trans (swept _)) begun

theorem portsMove_tenthTick (h : exec .tenthTick s = .next u) : s.PortsMove u := by
  refine keeps_powered (P := s.PortsMove) h (.refl s) (.ite ?_ (.refl s))
  refine portsMove_records (s := s) rfl rfl rfl fun p => ?_
  dsimp only
  split
  · next hr =>
    rw [getElem_ofFn_fin]
    exact ⟨PortRec.tenth_ordered, fun hh => absurd (hr.symm.trans hh) (by decide)⟩
  · exact ⟨fun h => h, fun _ => ⟨rfl, rfl⟩⟩

theorem portsMove_slotExpiry (h : exec .slotExpiry s = .next u) : s.PortsMove u := by
  refine keeps_powered (P := s.PortsMove) h (.refl s) (.ite ?_ (.refl s))
  have timed (v : State) (ts : Option Nat) (i : Fin 16) : v.PortsMove { v with slotTimer := ts, slotIndex := i } :=
    portsMove_records rfl rfl rfl fun _ => ⟨fun h => h, fun _ => ⟨rfl, rfl⟩⟩
  exact ((portsMove_accrue s (s.slotIndex + 1)).trans (timed _ _ _)).trans (portsMove_noteAttempts _ _)

theorem portsMove_classIntervalExpiry {order : ExpiryOrder} (h : exec (.classIntervalExpiry order) s = .next u) :
    s.PortsMove u := by
  have expired (v : State) : v.PortsMove v.classExpiry :=
    portsMove_of_frame (frame_classExpiry v) (notIn rfl) (notIn rfl) (notIn rfl) (notIn rfl)
  refine keeps_powered (P := s.PortsMove) h (.refl s) ?_
  cases order with
  | drainFirst => exact expired s
  | expiryFirst => exact .ite (((portsMove_beginTick s).trans (portsMove_tickBegun _ true)).trans (expired _)) (.refl s)

theorem portsMove_decayExpiry (h : exec .decayExpiry s = .next u) : s.PortsMove u := by
  refine keeps_powered (P := s.PortsMove) h (.refl s) (.ite ?_ (.refl s))
  refine portsMove_records (s := s) rfl rfl rfl fun p => ?_
  dsimp only
  rw [getElem_ofFn_fin]
  exact ⟨fun h => PortRec.scored_ordered h ((Nat.sub_le _ _).trans h.bounded.2.1), fun _ => ⟨rfl, rfl⟩⟩

theorem portsMove_probeRetireLife (h : exec .probeRetireLife s = .next u) : s.PortsMove u := by
  have freed (v : State) : v.PortsMove v.entryFreed :=
    portsMove_of_frame (frame_entryFreed v) (notIn rfl) (notIn rfl) (notIn rfl) (notIn rfl)
  refine keeps_powered (P := s.PortsMove) h (.refl s) ?_
  split
  · exact .refl s
  · exact .ite (((portsMove_probes s _).trans (portsMove_retireSent _ _)).trans (freed _)) (.refl s)

set_option Elab.async false in
theorem portsMove_queuedEntryLife (h : exec .queuedEntryLife s = .next u) : s.PortsMove u := by
  have dropped (ps : List ProbeEntry) (x : PerTap TapRec) : s.PortsMove { s with probes := ps, taps := x } :=
    portsMove_records rfl rfl rfl fun _ => ⟨fun h => h, fun _ => ⟨rfl, rfl⟩⟩
  refine keeps_powered (P := s.PortsMove) h (.refl s) ?_
  split
  · exact .refl s
  · exact .ite ((dropped _ _).trans (portsMove_unsent _ _)) (.refl s)

theorem portsMove_urgentRequest {p : Port} {confirm : Bool} (h : exec (.urgentRequest p confirm) s = .next u) :
    s.PortsMove u := by
  have taken (reqs : List UrgentReq) : s.PortsMove { s with urgent := reqs } :=
    portsMove_records rfl rfl rfl fun _ => ⟨fun h => h, fun _ => ⟨rfl, rfl⟩⟩
  refine keeps_powered (P := s.PortsMove) h (.refl s) ?_
  split
  · next hc =>
    have urged (v : State) (hr : v.running = true) : v.PortsMove (v.updPort p (·.urged confirm)) :=
      portsMove_running hr p fun h => PortRec.urged_ordered h confirm
    refine State.PortsMove.trans ?_ (portsMove_noteAttempts s _)
    exact (taken _).trans (urged _ hc.1)
  · exact .refl s

theorem portsMove_listenTimeout {p : Port} (h : exec (.listenTimeout p) s = .next u) : s.PortsMove u := by
  refine keeps_powered (P := s.PortsMove) h (.refl s) ?_
  dsimp only
  split
  · next hc =>
    obtain ⟨hr, hm, hs, -⟩ := hc
    exact ((portsMove_running hr p fun h => PortRec.toOpen_ordered h hm (by rw [hs]; rfl)).trans
      (portsMove_setLastCause _ p _)).trans (portsMove_record _ _)
  · exact .refl s

/-- The release timer and the hold bring a port to LISTEN (R125, R126). -/
theorem portsMove_listenAgain {p : Port} {c : Prop} [Decidable c] (hr : c → s.running = true)
    (hm : c → (s.port p).mode = .auto) : s.PortsMove (if c then noteAttempts s (s.listen p) else s) := by
  split
  · next hc => exact (portsMove_listen (hr hc) (hm hc)).trans (portsMove_noteAttempts _ _)
  · exact .refl s

theorem portsMove_goodStandingExpiry {p : Port} (h : exec (.goodStandingExpiry p) s = .next u) : s.PortsMove u := by
  refine keeps_powered (P := s.PortsMove) h (.refl s) ?_
  dsimp only
  split
  · next hc => exact portsMove_running hc.1 p fun h => PortRec.goodStanding_ordered h hc.2.1
  · exact .refl s

theorem portsMove_pollWriteEnd {l : TapId} {links : BitVec 32} {check : BitVec 4}
    (h : exec (.pollWriteEnd l links check) s = .next u) : s.PortsMove u := by
  rcases pollWriteEnd_cases h with rfl | ⟨-, rfl⟩
  · exact .refl _
  · have judged : s.PortsMove (s.judgeWrite l links check) :=
      .ite ((portsMove_placeLinks s l _).trans (portsMove_noteAttempts _ _)) (portsMove_census s _ _ _)
    exact judged.trans (portsMove_of_frame (frame_updPoll _ l _) (notIn rfl) (notIn rfl) (notIn rfl) (notIn rfl))

theorem portsMove_pollComplete {l : TapId} (h : exec (.pollComplete l) s = .next u) : s.PortsMove u := by
  rcases pollComplete_cases h with rfl | ⟨samples, -, rfl⟩
  · exact .refl _
  · have counted := (portsMove_deliver s samples).trans
      (portsMove_foldl (fun t (p : Port) => portsMove_census t .gateClosings (some p) 1) (s.closings samples) _)
    exact ⟨counted.running, counted.condition, counted.ports⟩

theorem portsMove_listenCompletion {p : Port} (h : exec (.listenCompletion p) s = .next u) : s.PortsMove u := by
  refine keeps_powered (P := s.PortsMove) h (.refl s) (portsMove_takeRequest fun t _ hr => ?_)
  split
  · next hc => exact portsMove_running hr p fun h => PortRec.toOpen_ordered h hc.1 (by rw [hc.2]; rfl)
  · exact .refl t

set_option Elab.async false in
theorem portsMove_echoScoreChange {p : Port} (h : exec (.echoScoreChange p) s = .next u) : s.PortsMove u := by
  refine keeps_powered (P := s.PortsMove) h (.refl s) (portsMove_takeRequest fun t k hr => ?_)
  split
  · exact portsMove_running hr p PortRec.startRelease_ordered
  · exact portsMove_running hr p PortRec.stopRelease_ordered

theorem portsMove_causeTaken {p : Port} {c : CauseTurn} (h : exec (.causeTaken p c) s = .next u) : s.PortsMove u := by
  refine keeps_powered (P := s.PortsMove) h (.refl s) (portsMove_takeRequest fun t k hr => ?_)
  split
  · exact portsMove_applyCause hr p _ _
  · exact .refl t

theorem portsMove_pinnedLoop {l : LoopTurn} (h : exec (.pinnedLoop l) s = .next u) : s.PortsMove u := by
  refine keeps_powered (P := s.PortsMove) h (.refl s) (portsMove_takeRequest fun t k hr => ?_)
  split
  · exact portsMove_takePinnedLoop _ _
  · exact .refl t

/-- The changes of the profile store: a save is no load, and its end leaves the store READY (R177, R180). -/
theorem portsMove_store (x : StoreRec) (hx : x.condition = .loading → s.store.condition = .loading) :
    s.PortsMove { s with store := x } := ⟨rfl, hx, fun _ => ⟨fun h => h, fun _ => ⟨rfl, rfl⟩⟩⟩

theorem portsMove_endSave (r : SaveResult) : s.PortsMove (s.endSave r) :=
  (portsMove_store _ (fun h => by cases h)).trans (portsMove_of_frame (frame_raiseAttached _ _) (notIn rfl) (notIn rfl) (notIn rfl) (notIn rfl))

end

/-! ### Every command -/

/-- A row that neither resets, loads nor starts the engine moves ports within their order. -/
theorem exec_portsMove {c : Instr} {s u : State} (hw : Part.running ∉ writes c) (h : exec c s = .next u) : s.PortsMove u := by
  by_cases hp : Part.ports ∈ writes c ∨ Part.store ∈ writes c
  · cases c with
    | tapLinkDown t => exact portsMove_tapLinkDown h
    | tapFrame t f order => exact portsMove_tapFrame h
    | analysisTake => exact portsMove_analysisTake h
    | msTick order => exact portsMove_msTick h
    | tenthTick => exact portsMove_tenthTick h
    | slotExpiry => exact portsMove_slotExpiry h
    | classIntervalExpiry order => exact portsMove_classIntervalExpiry h
    | decayExpiry => exact portsMove_decayExpiry h
    | probeRetireLife => exact portsMove_probeRetireLife h
    | queuedEntryLife => exact portsMove_queuedEntryLife h
    | urgentRequest p confirm => exact portsMove_urgentRequest h
    | servingAttempt t => exact keeps_powered (P := s.PortsMove) h (.refl s) (.ite (portsMove_attempt s _) (.refl s))
    | linkUp p =>
      exact keeps_powered (P := s.PortsMove) h (.refl s) (portsMove_takeRequest fun _ _ hr => portsMove_takeLinkUp hr p)
    | linkDown p =>
      exact keeps_powered (P := s.PortsMove) h (.refl s) (portsMove_takeRequest fun _ _ hr => portsMove_takeLinkDown hr p)
    | watchCrossing p =>
      exact keeps_powered (P := s.PortsMove) h (.refl s) (portsMove_takeRequest fun _ _ hr => portsMove_takeWatch hr p)
    | downwardCrossing p =>
      exact keeps_powered (P := s.PortsMove) h (.refl s)
        (portsMove_takeRequest fun _ _ hr => portsMove_running hr p PortRec.calmed_ordered)
    | riseThroughR p =>
      exact keeps_powered (P := s.PortsMove) h (.refl s)
        (portsMove_takeRequest fun _ _ hr => portsMove_running hr p PortRec.stopRelease_ordered)
    | echoScoreChange p => exact portsMove_echoScoreChange h
    | causeTaken p c => exact portsMove_causeTaken h
    | pinnedLoop l => exact portsMove_pinnedLoop h
    | listenCompletion p => exact portsMove_listenCompletion h
    | listenTimeout p => exact portsMove_listenTimeout h
    | releaseTimerExpiry p =>
      exact keeps_powered (P := s.PortsMove) h (.refl s) (portsMove_listenAgain (fun hc => hc.1) fun hc => hc.2.1)
    | holdExpiry p =>
      exact keeps_powered (P := s.PortsMove) h (.refl s) (portsMove_listenAgain (fun hc => hc.1) fun hc => hc.2.1)
    | goodStandingExpiry p => exact portsMove_goodStandingExpiry h
    | pollWriteEnd l links check => exact portsMove_pollWriteEnd h
    | pollComplete l => exact portsMove_pollComplete h
    | setModeHeld cp port =>
      refine portsMove_gateCommand h fun hr => ?_
      split
      · exact (portsMove_manualHeld hr _).trans (portsMove_answer _ cp _ _ _)
      · exact .refl s
    | setModePinned cp port =>
      refine portsMove_gateCommand h fun hr => ?_
      split
      · exact (portsMove_manualPinned hr _).trans (portsMove_answer _ cp _ _ _)
      · exact .refl s
    | setModeAuto cp port mode =>
      change execSetModeAuto cp port mode s = _ at h
      unfold execSetModeAuto at h
      split at h
      · exact Host.Outcome.next.inj h ▸ .refl s
      · refine portsMove_gateCommand h fun hr => ?_
        split
        · exact ((portsMove_manualAuto hr _).trans (portsMove_noteAttempts _ _)).trans (portsMove_answer _ cp _ _ _)
        · exact .refl s
    | release cp port forgive =>
      refine portsMove_gateCommand h fun hr => ?_
      split
      · exact ((portsMove_manualRelease hr _ _ _).trans (portsMove_noteAttempts _ _)).trans (portsMove_answer _ cp _ _ _)
      · exact .refl s
    | releaseAll cp forgive =>
      refine portsMove_gateCommand h fun hr => ?_
      split
      · exact ((portsMove_manualReleaseAll hr _).trans (portsMove_noteAttempts _ _)).trans (portsMove_answer _ cp _ _ _)
      · exact .refl s
    | writeProfile cp start count values =>
      rcases writeProfile_cases h with rfl | ⟨st, rfl⟩ | ⟨vs, st, -, -, -, rfl⟩
      · exact .refl _
      · exact portsMove_answer s cp st _ _
      · exact (portsMove_writeRun s vs).trans (portsMove_answer _ cp st _ _)
    | saveProfile cp =>
      exact keeps_command (P := s.PortsMove) h (.refl s) (fun st => portsMove_answer s cp st _ _)
        ((portsMove_store _ (fun h => by cases h)).trans (portsMove_answer _ cp _ _ _))
    | savePageDone =>
      refine keeps_powered (P := s.PortsMove) h (.refl s) ?_
      split
      · exact .refl s
      · exact .ite (portsMove_store _ fun hl => hl) (portsMove_endSave _)
    | savePageTimeout =>
      refine keeps_powered (P := s.PortsMove) h (.refl s) ?_
      split
      · exact .refl s
      · exact .ite (portsMove_endSave _) (.refl s)
    | saveNack =>
      refine keeps_powered (P := s.PortsMove) h (.refl s) ?_
      split
      · exact .refl s
      · exact portsMove_endSave _
    | _ => exact (hp.elim (notBoth rfl · hw) (notBoth rfl · hw)).elim
  · rw [not_or] at hp
    refine portsMove_of_frame (exec_frame h) hp.1 (fun hpr => ?_) hw hp.2
    cases c with
    | _ => exact (notBoth rfl hpr hp.1).elim

theorem powerOn_portsOk (unit : BitVec 40) : (State.powerOn unit).portsOk := by
  refine (portsOk_iff _).mpr ⟨fun p => ?_, fun _ => rfl⟩
  have reset : (State.powerOn unit).ports[p] = PortRec.reset := by simp [State.powerOn]
  have ordered : PortRec.reset.Ordered 6000 :=
    ⟨rfl, rfl, timersOk_stopped rfl rfl rfl, ⟨Nat.zero_le _, fun _ => rfl⟩, ⟨fun _ => rfl, nofun⟩,
      Nat.zero_le _, Nat.zero_le _, Nat.zero_le _⟩
  rw [reset]
  exact ⟨ordered, fun _ _ => rfl, fun _ => rfl⟩

set_option Elab.async false in
/-- Every command keeps the port table in order. -/
theorem exec_portsOk {c : Instr} {s u : State} (hs : s.portsOk) (h : exec c s = .next u) : u.portsOk := by
  by_cases hw : Part.running ∈ writes c
  · rcases running_written hw with rfl | rfl | ⟨acked, rfl⟩ | ⟨cp, hold, rfl⟩ | ⟨cp, rfl⟩
    · obtain rfl := Host.Outcome.next.inj h
      exact powerOn_portsOk s.unitNumber
    · obtain rfl := Host.Outcome.next.inj h
      split
      · exact powerOn_portsOk s.unitNumber
      · exact hs
    · refine keeps_powered (P := State.portsOk) h hs ?_
      split
      · next hl => exact endLoad_portsOk hs hl acked
      · exact hs
    · rcases command_cases h with ⟨-, rfl⟩ | ⟨st, -, rfl⟩ | ⟨hnone, rfl⟩
      · exact hs
      · exact (portsMove_answer s cp st _ _).portsOk hs
      · have hl : s.loading = false := firstFailure_none.mp hnone (s.loading, .busy) (by simp)
        split
        · next b _ =>
          exact (portsMove_answer _ cp _ _ _).portsOk (restartEngine_portsOk (by simpa [State.loading] using hl) b)
        · exact hs
    · rcases command_cases h with ⟨-, rfl⟩ | ⟨st, -, rfl⟩ | ⟨hnone, rfl⟩
      · exact hs
      · exact (portsMove_answer s cp st _ _).portsOk hs
      · have hl : s.loading = false := firstFailure_none.mp hnone (s.loading, .busy) (by simp)
        refine (portsMove_answer _ cp _ _ _).portsOk ?_
        split
        · exact hs
        · next hr =>
          exact becomeRunning_portsOk (fun p => resting_of_portsOk hs (Bool.eq_false_iff.mpr hr) p)
            (by simpa [State.loading] using hl)
  · exact (exec_portsMove hw h).portsOk hs

/-- Settles O57: each record stays in order within its state and across every entry of a state. -/
theorem portTableStaysInOrder : Obligations.PortTableStaysInOrder := fun _ _ hs h =>
  step_keeps (P := State.portsOk) (fun _ _ h => h) (fun _ _ _ => exec_portsOk) hs h

end Sys2Proof.Machine
end

section
/-! PROOF. The queue, the reset line, the gate hold and the census counters. What a control command answers is said once
here, by its checks; what an argument byte names is said once too. -/

namespace Sys2Proof.Machine

open Sys2Proof.Spec

/-! ### The queue and the reset line -/

/-- Settles O1: the two branches of `step`. -/
theorem stepRunsTheFrontCommand : Obligations.StepRunsTheFrontCommand := by
  unfold Obligations.StepRunsTheFrontCommand
  refine ⟨fun c rest s h => ?_, fun s h => ?_⟩
  · simp only [step, h]
  · simp only [step, h]

/-- The reset value of the statements is the one of the model. -/
theorem powerOn_eq (unit : BitVec 40) : Spec.powerOn unit = State.powerOn unit := rfl

/-- While RESET_N is low a powered command of any kind leaves the state. -/
theorem exec_low {s : State} (h : s.resetLow = true) {c : Instr} (ha : c ≠ .resetAssert) (hr : c ≠ .resetRelease) :
    exec c s = .next s := by
  have low (t : State) : powered s t = .next s := powered_low h t
  cases c with
  | resetAssert => exact absurd rfl ha
  | resetRelease => exact absurd rfl hr
  | readIdent ev => cases ev with
    | command cp => exact low _
    | begins cp => exact low _
  | readStatus ev => cases ev with
    | command cp => exact low _
    | begins cp => exact low _
  | readPort cp ev => cases ev with
    | command p => exact low _
    | viewBegins => exact low _
  | readPorts cp ev => cases ev with
    | command p => exact low _
    | viewBegins => exact low _
  | setModeAuto cp port mode =>
    change execSetModeAuto cp port mode s = _
    unfold execSetModeAuto
    split
    · rfl
    · exact low _
  | readIncidents cp ev => cases ev with
    | command n => exact low _
    | begins => exact low _
    | recordBegins => exact low _
    | shiftedOut n => exact low _
  | readEvents ev => cases ev with
    | command cp => exact low _
    | begins cp => exact low _
  | readCounter cp ev => cases ev with
    | command n => exact low _
    | begins => exact low _
  | readProfile cp ev => cases ev with
    | command n => exact low _
    | fieldBegins => exact low _
  | writeProfile cp start count values =>
    change execWriteProfile cp start count values s = _
    unfold execWriteProfile
    split
    · rfl
    · exact low _
  | find ev => cases ev with
    | command cp target => exact low _
    | scanTo place => exact low _
  | readFind ev => cases ev with
    | command cp => exact low _
    | begins cp => exact low _
  | _ => exact low _

theorem reset_flag_clear_mask_set (f : EventFlag) : CtlRec.reset.flags = 0 ∧ CtlRec.reset.mask &&& f.bit = f.bit := by
  cases f <;> decide

/-- Settles O3: the reset value of the model is the one listed, and `powered` keeps every other command from acting. -/
theorem resetHoldsThePartAtTheManualsValues : Obligations.ResetHoldsThePartAtTheManualsValues := by
  unfold Obligations.ResetHoldsThePartAtTheManualsValues
  refine ⟨fun s => ⟨rfl, rfl⟩, fun unit p cp f => ⟨?_, ?_⟩, fun c s h => exec_low h⟩
  · have hp : (Spec.powerOn unit).ports[p] = PortRec.reset := Vector.getElem_replicate ..
    rw [hp]
    rfl
  · have hc : (Spec.powerOn unit).cps.get cp = CtlRec.reset := by cases cp <;> rfl
    rw [hc]
    exact reset_flag_clear_mask_set f

/-- Settles O56: each part of the invariant at its reset value. -/
theorem resetIsInOrder : Obligations.ResetIsInOrder := by
  unfold Obligations.ResetIsInOrder
  have counts (i : Fin 4) : State.reset.counters[i].count ≤ 4294967295 := by
    revert i
    decide
  refine ⟨powerOn_portsOk _, Profile.defaults_ok _, powerOn_ringOk _, ?_, ?_, ⟨rfl, ?_⟩, ?_, ?_, counts, ?_, ?_⟩
  · exact ⟨Nat.zero_le _, List.nodup_nil, by simp [State.reset, State.powerOn]⟩
  · have hx : TapRec.reset.ok := by simp [TapRec.ok, TapRec.reset]
    exact ⟨hx, hx, fun w h => by cases h⟩
  · simp [State.reset, State.powerOn]
  · exact (quiet_iff _).mpr fun _ => powerOn_quiet _
  · exact Nat.zero_le _
  · exact le_refl 65535
  · exact le_refl 65535

/-! ### What a control command answers -/

/-- A control command on a port that listens answers the status of the first check that fails, or has its effect. -/
theorem command_eq {cp : CtlPort} {s : State} (h : Listening s cp) (checks : List (Bool × Status)) (run : State) :
    command cp s checks run = .next (match firstFailure checks with
      | some st => refuse s cp st
      | none => run) := by
  obtain ⟨hr, hp⟩ := h
  cases hf : firstFailure checks with
  | some st => exact command_refused hr hp hf run
  | none => exact command_runs hr hp hf run

theorem command_unchecked {cp : CtlPort} {s : State} (h : Listening s cp) (run : State) :
    command cp s [] run = .next run := command_runs h.1 h.2 rfl run

/-! ### What an argument byte names (R171, R185) -/

set_option Elab.async false in
theorem toNat_byte {n : Nat} (h : n < 256) : (BitVec.ofNat 8 n).toNat = n := by
  rw [BitVec.toNat_ofNat, Nat.mod_eq_of_lt h]

@[simp] theorem portArg_ofNat (p : Port) : portArg (BitVec.ofNat 8 p.val) = some p := by
  have hp := p.isLt
  simp [portArg, toNat_byte (n := p.val) (by omega)]

theorem portArg_isNone (b : Byte) : (portArg b).isNone = decide (48 ≤ b.toNat) := by
  unfold portArg
  split
  · simp; omega
  · simp; omega

@[simp] theorem flagArg_ofBool (f : Bool) : flagArg (if f then 1 else 0) = some f := by cases f <;> rfl

theorem flagArg_isNone (b : Byte) : (flagArg b).isNone = decide (2 ≤ b.toNat) := by
  unfold flagArg
  split
  · simp [*]
  · split
    · simp [*]
    · simp; bv_omega

set_option Elab.async false in
@[simp] theorem counterArg_ofNat (i : Fin 4) : counterArg (BitVec.ofNat 8 i.val) = some i := by
  have hi := i.isLt
  simp [counterArg, toNat_byte (n := i.val) (by omega)]

theorem counterArg_isNone (b : Byte) : (counterArg b).isNone = decide (4 ≤ b.toNat) := by
  unfold counterArg
  split
  · simp; omega
  · simp; omega

theorem kindArg_isNone (b : Byte) : (kindArg b).isNone = decide (16 ≤ b.toNat) := by
  have hl : censusKinds.length = 16 := rfl
  rw [kindArg, Bool.eq_iff_iff]
  simp [hl]

theorem kindArg_ofNat {n : Nat} {k : CensusKind} (h : censusKinds[n]? = some k) :
    kindArg (BitVec.ofNat 8 n) = some k := by
  have hn : n < censusKinds.length := (List.getElem?_eq_some_iff.mp h).1
  rw [kindArg, toNat_byte (lt_trans hn (by decide)), h]

theorem anyPortArg_isNone (b : Byte) : (anyPortArg b).isNone = decide (48 ≤ b.toNat ∧ b ≠ 0xFF) := by
  unfold anyPortArg
  split
  · simp [*]
  · next h => simp [portArg_isNone, show ¬b = 255#8 from h]

set_option Elab.async false in
@[simp] theorem anyPortArg_port (p : Port) : anyPortArg (BitVec.ofNat 8 p.val) = some (some p) := by
  have hp := p.isLt
  have hne : BitVec.ofNat 8 p.val ≠ 0xFF := fun h => by
    have := congrArg BitVec.toNat h
    rw [toNat_byte (by omega)] at this
    simp at this; omega
  rw [anyPortArg, if_neg hne, portArg_ofNat, Option.map_some]

theorem countArg_isNone (b : Byte) : (countArg b).isNone = decide (b = 0 ∨ 9 ≤ b.toNat) := by
  unfold countArg
  split
  · simp; bv_omega
  · simp; bv_omega

/-! ### The gate hold (R174 to R176) -/

theorem heldByOther_eq (s : State) (cp : CtlPort) :
    s.heldByOther cp = decide (s.holdOwner ≠ none ∧ s.holdOwner ≠ some cp) := by
  unfold State.heldByOther
  cases s.holdOwner <;> simp

theorem heldByOther_free {s : State} {cp : CtlPort} (h : s.holdOwner = none ∨ s.holdOwner = some cp) :
    s.heldByOther cp = false := by
  rw [heldByOther_eq]
  rcases h with h | h <;> simp [h]

/-- Settles O20: the one check of TAKE_HOLD, and none of DROP_HOLD. -/
theorem holdIsTakenAndDropped : Obligations.HoldIsTakenAndDropped := by
  unfold Obligations.HoldIsTakenAndDropped
  intro s cp h
  constructor
  · by_cases ho : s.holdOwner = none ∨ s.holdOwner = some cp
    · rw [if_pos ho]
      exact command_runs h.1 h.2 (by simp [firstFailure, heldByOther_free ho]) _
    · rw [if_neg ho]
      exact command_refused h.1 h.2 (by simpa [firstFailure, heldByOther_eq] using ho) _
  · by_cases ho : s.holdOwner = some cp
    · rw [if_pos ho]
      refine (command_unchecked h _).trans ?_
      rw [if_pos ho]
      rfl
    · rw [if_neg ho]
      refine (command_unchecked h _).trans ?_
      rw [if_neg ho]
      rfl

/-- Settles O21: the check by port, and whether control port 1 was the owner. -/
theorem breakHoldFreesTheHold : Obligations.BreakHoldFreesTheHold := by
  unfold Obligations.BreakHoldFreesTheHold
  refine fun s => ⟨fun h => ?_, fun h => ?_⟩
  case refine_2 => exact command_refused h.1 h.2 (checks := [(true, .denied)]) rfl s
  refine (command_runs h.1 h.2 (checks := [(false, .denied)]) rfl _).trans ?_
  by_cases ho : s.holdOwner = some .cp1
  · rw [if_pos ho]
    simp only [if_pos ho]
    rfl
  · rw [if_neg ho]
    simp only [if_neg ho]
    rfl

/-! ### The census counters (R164, R165) -/

set_option Elab.async false in
theorem Counter.hit_eq (c : Counter) (k : CensusKind) (p : Option Port) (n : Nat) : c.hit k p n =
    if c.kind = k ∧ (k = .tapErrors ∨ k = .tagErrors ∨ k = .pollErrors ∨ c.filter = none ∨ c.filter = p) then
      { c with count := min (c.count + n) 4294967295 }
    else c := by
  have portless : k.portless = true ↔ k = .tapErrors ∨ k = .tagErrors ∨ k = .pollErrors := by
    cases k <;> simp [CensusKind.portless]
  unfold Counter.hit Counter.admits
  congr 1
  simp [portless, or_assoc]

/-- Settles O25: the arguments name counter, kind and filter; a counter is hit as it admits the event. -/
theorem countersCountTheirSelection : Obligations.CountersCountTheirSelection := by
  unfold Obligations.CountersCountTheirSelection
  refine fun s cp i k p n => ⟨fun kind filter hk h => ?_, ?_, rfl⟩
  · change execSelectCounter _ _ _ _ _ = _
    simp only [execSelectCounter, counterArg_ofNat, kindArg_ofNat hk]
    cases filter with
    | none => exact command_runs h.1 h.2 rfl _
    | some q =>
      rw [anyPortArg_port]
      exact command_runs h.1 h.2 rfl _
  · exact (State.census_counter s k p n i).trans (Counter.hit_eq _ k p n)

end Sys2Proof.Machine

end

section
/-! PROOF. Control transactions: the bytes that spell a command, and what chip select makes of them (R168 to R170, R185). -/

namespace Sys2Proof.Machine

open Sys2Proof.Spec

/-! ### The bits of a byte on the line -/

theorem bitsByte_byteBits (b : Byte) : bitsByte (byteBits b) = b := by
  have step (k : Nat) : b.toNat / 2 ^ (k + 1) * 2 + (b.getLsbD k).toNat = b.toNat / 2 ^ k := by
    have bit : (b.getLsbD k).toNat = b.toNat / 2 ^ k % 2 := Nat.toNat_testBit _ _
    rw [bit, pow_succ, ← Nat.div_div_eq_div_mul, mul_comm]
    exact Nat.div_add_mod _ 2
  have start : b.toNat / 2 ^ (7 + 1) = 0 := Nat.div_eq_of_lt b.isLt
  have value : (byteBits b).foldl (fun acc x => acc * 2 + x.toNat) (b.toNat / 2 ^ (7 + 1)) = b.toNat / 2 ^ 0 := by
    rw [← step 0, ← step 1, ← step 2, ← step 3, ← step 4, ← step 5, ← step 6, ← step 7]
    rfl
  rw [start, pow_zero, Nat.div_one] at value
  rw [bitsByte, value, BitVec.ofNat_toNat, BitVec.setWidth_eq]

theorem bytesOfBits_partial (part : List Bool) (h : part.length < 8) : bytesOfBits part = [] := by
  unfold bytesOfBits
  split
  · simp at h; omega
  · rfl

theorem bytesOfBits_cons (b : Byte) (rest : List Bool) :
    bytesOfBits (byteBits b ++ rest) = b :: bytesOfBits rest := by
  conv_rhs => rw [← bitsByte_byteBits b]
  rfl

set_option Elab.async false in
theorem bytesOfBits_bits (bytes : List Byte) (part : List Bool) (h : part.length < 8) :
    bytesOfBits (bytes.flatMap byteBits ++ part) = bytes := by
  induction bytes with
  | nil => exact bytesOfBits_partial part h
  | cons b bytes ih => rw [List.flatMap_cons, List.append_assoc, bytesOfBits_cons, ih]

/-! ### The byte of a command (R185) -/

/-- The command byte of a command, 0x01 the first of the table. -/
def CommandName.byte (n : CommandName) : Byte := BitVec.ofNat 8 (commandOrder.idxOf n + 1)

theorem commandNamed_byte (n : CommandName) : commandNamed n.byte = some n := by cases n <;> rfl

theorem commandNamed_some {b : Byte} {n : CommandName} (h : commandNamed b = some n) : b = n.byte := by
  have inOrder : ∀ i < 22, ∀ n, commandOrder[i]? = some n → commandOrder.idxOf n = i := by decide
  unfold commandNamed at h
  split at h
  · cases h
  · next hb =>
    have hi : b.toNat - 1 < 22 := (List.getElem?_eq_some_iff.mp h).1
    have at' := inOrder _ hi n h
    rw [CommandName.byte, at']
    bv_omega

theorem commandNamed_none (b : Byte) : commandNamed b = none ↔ b = 0 ∨ 23 ≤ b.toNat := by
  have hl : commandOrder.length = 22 := rfl
  unfold commandNamed
  split
  · simp [*]
  · next hb =>
    rw [List.getElem?_eq_none_iff, hl]
    constructor
    · intro h; right; omega
    · rintro (h | h)
      · exact absurd h hb
      · omega

/-! ### What the bytes of a transaction spell (R168, R169) -/

set_option Elab.async false in
/-- A command byte with its arguments spells a well-formed command whose own bytes they begin with. -/
theorem withArguments_spells {cp : CtlPort} {n : CommandName} {args : List Byte} {c : Instr}
    (h : withArguments cp n args = some c) :
    Instr.wf c = true ∧ ∃ own more, encodeTransaction c = some (cp, n.byte :: own) ∧ args = own ++ more := by
  cases n with
  | readIdent | readStatus | takeHold | dropHold | breakHold | readEvents | saveProfile | readFind | releaseEngine =>
    cases h
    exact ⟨rfl, [], args, rfl, rfl⟩
  | readPort | readPorts | releaseAll | readIncidents | readCounter | readProfile | find | restartEngine =>
    match args, h with
    | x :: more, h =>
      cases h
      exact ⟨rfl, [x], more, rfl, rfl⟩
  | setMode =>
    match args, h with
    | p :: m :: more, h =>
      cases h
      unfold setModeOf
      split
      · next hm => exact ⟨rfl, [p, m], more, by rw [hm]; rfl, rfl⟩
      · next hp =>
        split
        · next hm => exact ⟨rfl, [p, m], more, by rw [hm]; rfl, rfl⟩
        · next hh => exact ⟨decide_eq_true ⟨hp, hh⟩, [p, m], more, rfl, rfl⟩
  | release =>
    match args, h with
    | p :: f :: more, h =>
      cases h
      exact ⟨rfl, [p, f], more, rfl, rfl⟩
  | writeMask =>
    match args, h with
    | hi :: lo :: more, h =>
      cases h
      refine ⟨rfl, [hi, lo], more, ?_, rfl⟩
      have high : (hi ++ lo).extractLsb' 8 8 = hi := BitVec.extractLsb'_append_eq_left
      have low : (hi ++ lo).extractLsb' 0 8 = lo := BitVec.extractLsb'_append_eq_right
      change some (cp, [13, (hi ++ lo).extractLsb' 8 8, (hi ++ lo).extractLsb' 0 8]) = _
      rw [high, low]
      rfl
  | selectCounter =>
    match args, h with
    | x :: k :: f :: more, h =>
      cases h
      exact ⟨rfl, [x, k, f], more, rfl, rfl⟩
  | writeProfile =>
    match args, h with
    | i :: n :: vs, h =>
      change (if valueBytes i n ≤ vs.length then some (Instr.writeProfile cp i n (vs.take (valueBytes i n)))
        else none) = some c at h
      split at h
      · next hl =>
        cases h
        exact ⟨decide_eq_true (List.length_take_of_le hl), i :: n :: vs.take (valueBytes i n),
          vs.drop (valueBytes i n), rfl, by simp⟩
      · cases h

theorem decodeTransaction_spells {cp : CtlPort} {bytes : List Byte} {c : Instr}
    (h : decodeTransaction cp bytes = some c) :
    Instr.wf c = true ∧ ∃ own more, encodeTransaction c = some (cp, own) ∧ bytes = own ++ more := by
  match bytes, h with
  | b :: args, h =>
    rw [decodeTransaction] at h
    cases hn : commandNamed b with
    | none =>
      rw [hn] at h
      cases h
      have hwf : (!namesCommand b) = true := by rw [namesCommand, hn]; rfl
      exact ⟨hwf, [b], args, rfl, rfl⟩
    | some n =>
      rw [hn] at h
      obtain ⟨hwf, own, more, he, ha⟩ := withArguments_spells h
      exact ⟨hwf, n.byte :: own, more, he, by rw [commandNamed_some hn, ha]; rfl⟩

theorem bytes_append (m : Word16) : m.extractLsb' 8 8 ++ m.extractLsb' 0 8 = m := by
  refine BitVec.eq_of_getLsbD_eq fun i hi => ?_
  rw [BitVec.getLsbD_append]
  by_cases h : i < 8
  · simp [h]
  · simp [h, show i - 8 < 8 by omega, show 8 + (i - 8) = i by omega]

/-- A well-formed control command is read back from its bytes, whatever follows them. -/
theorem decodeTransaction_encode {c : Instr} {sent : CtlPort × List Byte} (more : List Byte)
    (hwf : Instr.wf c = true) (he : encodeTransaction c = some sent) :
    decodeTransaction sent.1 (sent.2 ++ more) = some c := by
  cases c with
  | readIdent ev | readStatus ev | readEvents ev | readFind ev | readPort _ ev | readPorts _ ev | readIncidents _ ev
  | readCounter _ ev | readProfile _ ev | find ev =>
    cases ev with
    | command => cases he; rfl
    | _ => exact (Option.some_ne_none _ he.symm).elim
  | setModeAuto cp p m =>
    cases he
    obtain ⟨h1, h2⟩ : m ≠ 1 ∧ m ≠ 2 := of_decide_eq_true hwf
    change some (setModeOf cp p m) = _
    rw [setModeOf, if_neg h1, if_neg h2]
  | writeMask cp m =>
    cases he
    change some (Instr.writeMask cp (m.extractLsb' 8 8 ++ m.extractLsb' 0 8)) = _
    rw [bytes_append]
  | writeProfile cp i n vs =>
    cases he
    have hl : vs.length = valueBytes i n := of_decide_eq_true hwf
    change (if valueBytes i n ≤ (vs ++ more).length then
      some (Instr.writeProfile cp i n ((vs ++ more).take (valueBytes i n))) else none) = _
    rw [← hl, if_pos (by simp), List.take_left]
  | unknownCommand cp b =>
    cases he
    have hn : commandNamed b = none := by
      have hn : (!(commandNamed b).isSome) = true := hwf
      rwa [Bool.not_eq_true', Option.isSome_eq_false_iff, Option.isNone_iff_eq_none] at hn
    change decodeTransaction cp (b :: more) = _
    rw [decodeTransaction, hn]
  | setModeHeld | setModePinned | release | releaseAll | takeHold | dropHold | breakHold | selectCounter | saveProfile
  | restartEngine | releaseEngine => cases he; rfl
  | _ => exact (Option.some_ne_none _ he.symm).elim

/-- Settles O4. A proper beginning of a command's bytes spells nothing: what it spelled would be the command itself, and
its bytes would be too long. -/
theorem transactionsReadBack : Obligations.TransactionsReadBack := by
  unfold Obligations.TransactionsReadBack
  refine ⟨⟨fun c cp bytes more hwf he => decodeTransaction_encode more hwf he, fun cp bytes c => decodeTransaction_spells⟩,
    fun c cp bytes n hwf he hn => ?_, bytesOfBits_bits, fun b i => ⟨?_, ?_⟩⟩
  · cases hd : decodeTransaction cp (bytes.take n) with
    | none => rfl
    | some c' =>
      obtain ⟨hwf', own, more, he', ht⟩ := decodeTransaction_spells hd
      have whole : bytes = own ++ (more ++ bytes.drop n) := by
        rw [← List.append_assoc, ← ht, List.take_append_drop]
      have hc : decodeTransaction cp bytes = some c := by
        have : decodeTransaction cp (bytes ++ []) = some c := decodeTransaction_encode [] hwf he
        rwa [List.append_nil] at this
      have hc' : decodeTransaction cp bytes = some c' := by
        rw [whole]
        exact decodeTransaction_encode _ hwf' he'
      obtain rfl : c = c' := Option.some.inj (hc.symm.trans hc')
      obtain ⟨-, rfl⟩ : cp = cp ∧ bytes = own := by
        rw [he] at he'
        simpa using he'
      have := congrArg List.length ht
      rw [List.length_take, List.length_append] at this
      omega
  · simp [byteBits]
  · simp [byteBits]

/-! ### Chip select (R168 to R170) -/

set_option Elab.async false in
/-- A control command changes nothing where its port is not RECEIVING. -/
theorem command_deaf {cp : CtlPort} {s : State} (h : (s.cps.get cp).phase ≠ .receiving)
    (checks : List (Bool × Status)) (run : State) : command cp s checks run = .next s := by
  simp [command, powered, h]

theorem exec_deaf {c : Instr} {sent : CtlPort × List Byte} {s : State}
    (he : encodeTransaction c = some sent) (h : (s.cps.get sent.1).phase ≠ .receiving) : exec c s = .next s := by
  cases c with
  | readIdent ev | readStatus ev | readEvents ev | readFind ev =>
    cases ev with
    | command =>
      cases he
      exact command_deaf h [] _
    | _ => exact (Option.some_ne_none _ he.symm).elim
  | readPort _ ev | readPorts _ ev | readIncidents _ ev | readCounter _ ev | readProfile _ ev | find ev =>
    cases ev with
    | command =>
      cases he
      exact command_deaf h _ _
    | _ => exact (Option.some_ne_none _ he.symm).elim
  | dropHold | writeMask =>
    cases he
    exact command_deaf h [] _
  | setModeAuto cp p m =>
    cases he
    change execSetModeAuto cp p m s = _
    unfold execSetModeAuto
    split
    · rfl
    · exact command_deaf h _ _
  | writeProfile cp i n vs =>
    cases he
    change execWriteProfile cp i n vs s = _
    unfold execWriteProfile
    split
    · rfl
    · exact command_deaf h _ _
  | setModeHeld | setModePinned | release | releaseAll | takeHold | breakHold | selectCounter | saveProfile
  | restartEngine | releaseEngine | unknownCommand =>
    cases he
    exact command_deaf h _ _
  | _ => exact (Option.some_ne_none _ he.symm).elim

/-- The bytes 0x00 and 0x17 to 0xFF are those that name no command. -/
theorem decodeTransaction_unknown (cp : CtlPort) (b : Byte) (args : List Byte) :
    decodeTransaction cp (b :: args) = some (.unknownCommand cp b) ↔ b = 0 ∨ 23 ≤ b.toNat := by
  rw [← commandNamed_none]
  cases hn : commandNamed b with
  | none => simp [decodeTransaction, hn]
  | some n =>
    refine iff_of_false (fun h => ?_) (by simp)
    have hwf : (!namesCommand b) = true := (decodeTransaction_spells h).1
    rw [namesCommand, hn] at hwf
    cases hwf

set_option Elab.async false in
/-- More of a response is to be copied in each of these cases. -/
theorem unfinished_iff (a : Answer) : a.unfinished = true ↔ (∃ r, a = .waiting r) ∨ (∃ p, a = .port p)
    ∨ (∃ p, a = .ports p) ∨ (∃ i, a = .profile i) ∨ ∃ r, a = .incidents r ∧ (r.lowered = false ∨ 0 < r.left) := by
  cases a <;> simp [Answer.unfinished, Nat.pos_iff_ne_zero]

/-- Settles O5: chip select by the phase of its port, and what the bytes of a transaction name. -/
theorem transactionsAreFramedByChipSelect : Obligations.TransactionsAreFramedByChipSelect := by
  unfold Obligations.TransactionsAreFramedByChipSelect
  refine ⟨fun cp shifted s hon => ⟨powered_next hon _, fun h => ?_, fun h => ?_, fun h => ?_⟩,
    fun c cp bytes s he h => exec_deaf he h, fun cp b s h hb => ?_, decodeTransaction_unknown⟩
  · change execChipSelectRise _ s = _
    rw [execChipSelectRise, h]
    exact powered_next hon _
  · change execChipSelectRise _ s = _
    rw [execChipSelectRise, h]
    exact powered_next hon _
  · refine ⟨(s.cps.get cp).final shifted, ?_, fun ha => final_abandoned ha _, fun hm => ?_, fun hm ha => ?_⟩
    · change execChipSelectRise _ s = _
      rw [execChipSelectRise, h]
      exact powered_next hon _
    · have hu := (unfinished_iff _).mpr hm
      have ha : (s.cps.get cp).answer ≠ .abandoned := fun ha => by rw [ha] at hu; cases hu
      rw [final_running ha, sent_unfinished hu]
      rfl
    · have hu : (s.cps.get cp).answer.unfinished = false := by
        rw [← Bool.not_eq_true, unfinished_iff]
        exact hm
      obtain ⟨hl, hk⟩ := sent_finished hu shifted
      rw [final_running ha]
      refine ⟨hl, fun k hlt => ?_⟩
      rw [List.getElem?_eq_getElem (by omega)]
      congr 1
      rw [← List.getD_eq_getElem _ 0]
      exact hk k hlt
  · refine (command_eq h _ _).trans ?_
    have hn : namesCommand b = false := by rw [namesCommand, (commandNamed_none b).mpr hb]; rfl
    rw [hn]
    rfl

end Sys2Proof.Machine

end

section
/-! PROOF. What control commands are refused, what reads copy, and what the flags, the poll lines, the indicators and the
save do with theirs. -/

namespace Sys2Proof.Machine

open Sys2Proof.Spec

/-! ### Refusals (R170 to R173) -/

/-- The checks of a gate-changing command, as the first of them that fails decides. -/
theorem gateChecks_decide {cp : CtlPort} {s : State} {c : Instr} {closed bad shut : Bool}
    (h : Listening s cp) (hc : ∃ run, exec c s = command cp s (gateChecks s cp closed bad shut) run) :
    (closed = true → exec c s = .next (refuse s cp .denied))
      ∧ (closed = false → bad = true → exec c s = .next (refuse s cp .badArg))
      ∧ (closed = false → bad = false → shut = true → exec c s = .next (refuse s cp .denied))
      ∧ (closed = false → bad = false → shut = false → s.running = false → exec c s = .next (refuse s cp .busy))
      ∧ (closed = false → bad = false → shut = false → s.running = true →
          decide (s.holdOwner ≠ none ∧ s.holdOwner ≠ some cp) = true → exec c s = .next (refuse s cp .held)) := by
  obtain ⟨run, hrun⟩ := hc
  rw [hrun, command_eq h]
  unfold gateChecks
  rw [heldByOther_eq]
  refine ⟨?_, ?_, ?_, ?_, ?_⟩
  · rintro rfl; rfl
  · rintro rfl rfl; rfl
  · rintro rfl rfl rfl; rfl
  · rintro rfl rfl rfl hr; rw [hr]; rfl
  · rintro rfl rfl rfl hr ho; rw [hr, ho]; rfl

theorem fromCp1_eq (cp : CtlPort) : fromCp1 cp = decide (cp = .cp1) := by cases cp <;> rfl

set_option Elab.async false in
theorem pinnedForCp1_eq (s : State) (cp : CtlPort) (port : Byte) : s.pinnedForCp1 cp port =
    (decide (cp = .cp1) && (portArg port).any fun p => decide ((s.port p).mode = .pinned)) := by
  unfold State.pinnedForCp1
  rw [fromCp1_eq]
  cases portArg port <;> rfl

/-- Settles O6: every gate-changing command has the checks of `gateChecks`. -/
theorem gateCommandsAreCheckedInOrder : Obligations.GateCommandsAreCheckedInOrder := by
  unfold Obligations.GateCommandsAreCheckedInOrder
  intro cp port x s h
  dsimp only
  rw [← pinnedForCp1_eq, ← fromCp1_eq, ← portArg_isNone, ← flagArg_isNone]
  exact ⟨gateChecks_decide h ⟨_, rfl⟩, gateChecks_decide h ⟨_, rfl⟩,
    fun h1 h2 => gateChecks_decide h ⟨_, if_neg (not_or.mpr ⟨h1, h2⟩)⟩, gateChecks_decide h ⟨_, rfl⟩,
    gateChecks_decide h ⟨_, rfl⟩⟩

theorem command_fails {cp : CtlPort} {s : State} {checks : List (Bool × Status)} {st : Status} {run : State}
    {c : Instr} (h : Listening s cp) (hc : exec c s = command cp s checks run) (hf : firstFailure checks = some st) :
    exec c s = .next (refuse s cp st) := hc.trans (command_refused h.1 h.2 hf run)

set_option Elab.async false in
/-- WRITE_PROFILE whose value bytes are complete is a command with its three checks. -/
theorem exec_writeProfile {cp : CtlPort} {x y : Byte} {vs : List Byte} {s : State}
    (hwf : Instr.wf (.writeProfile cp x y vs) = true) : ∃ run, exec (.writeProfile cp x y vs) s = command cp s
      [(fromCp1 cp, .denied), (!runInRange x y, .badArg),
        (s.storeBusy || (s.running && (writeFields x y).any FieldId.isWindow), .busy)] run := by
  have hl : vs.length = valueBytes x y := of_decide_eq_true hwf
  exact ⟨_, if_neg (by omega)⟩

theorem runInRange_iff (x y : Byte) : runInRange x y = true ↔ x.toNat < 118 ∧ y ≠ 0 ∧ x.toNat + y.toNat ≤ 118 := by
  have hy : 1 ≤ y.toNat ↔ y ≠ 0 := by bv_omega
  simp [runInRange, Config.profileFields, hy]

set_option Elab.async false in
/-- A run holds a window field exactly if it reaches from before the end of the windows to behind their beginning. -/
theorem writeFields_window (x y : Byte) (hx : x.toNat ≤ 16) (hxy : 5 < x.toNat + y.toNat) (hy : y ≠ 0)
    (hr : x.toNat + y.toNat ≤ 118) : (writeFields x y).any FieldId.isWindow = true := by
  have windows : ∀ k, 5 ≤ k → k ≤ 16 → (fieldOrder[k]?.map FieldId.isWindow) = some true := by
    intro k h1 h2
    interval_cases k <;> rfl
  have hy1 : 1 ≤ y.toNat := by bv_omega
  have at' := windows (max 5 x.toNat) (by omega) (by omega)
  rw [Option.map_eq_some_iff] at at'
  obtain ⟨f, hf, hw⟩ := at'
  rw [List.any_eq_true]
  refine ⟨f, ?_, hw⟩
  rw [writeFields, fieldRun, List.mem_iff_getElem?]
  refine ⟨max 5 x.toNat - x.toNat, ?_⟩
  rw [List.getElem?_take_of_lt (by omega), List.getElem?_drop, show x.toNat + (max 5 x.toNat - x.toNat) = max 5 x.toNat by omega]
  exact hf

set_option Elab.async false in
theorem attached_cp1 (s : State) (cp : CtlPort) : s.attached cp = true ↔ cp = .cp0 ∨ s.profile.cp1Attached = true := by
  cases cp <;> simp [State.attached]

/-- Settles O7: the checks of each command, in their order. -/
theorem otherCommandsAreRefusedByTheirChecks : Obligations.OtherCommandsAreRefusedByTheirChecks := by
  unfold Obligations.OtherCommandsAreRefusedByTheirChecks
  intro cp x y z vs s h
  have busy : s.storeBusy = decide (s.store.condition ≠ .ready) := rfl
  have loads : s.loading = decide (s.store.condition = .loading) := rfl
  dsimp only
  rw [← busy, ← loads]
  refine ⟨?_, ?_, ?_, ?_, ?_, ?_, ?_, ?_, ?_, ?_, ?_, ?_, ?_, ?_, ?_, ?_⟩
  · intro hcp
    have denied : fromCp1 cp = true := by rw [hcp]; rfl
    refine ⟨command_fails h rfl ?_, fun hwf => ?_, command_fails h rfl ?_, command_fails h rfl ?_,
      command_fails h rfl ?_⟩
    case refine_2 =>
      obtain ⟨run, hrun⟩ := exec_writeProfile (s := s) hwf
      exact command_fails h hrun (by rw [denied]; rfl)
    all_goals
      rw [denied]
      rfl
  · rintro rfl ha
    refine command_fails h rfl ?_
    simp [firstFailure, State.attached, ha]
  · intro ha hx
    refine command_fails h rfl ?_
    rw [(attached_cp1 s cp).mpr ha, countArg_isNone, decide_eq_true hx]
    rfl
  · intro hx
    refine ⟨command_fails h rfl ?_, command_fails h rfl ?_, fun hff => command_fails h rfl ?_⟩
    · simp [firstFailure, portArg_isNone, hx]
    · simp [firstFailure, portArg_isNone, hx]
    · rw [anyPortArg_isNone, decide_eq_true ⟨hx, hff⟩]
      rfl
  · rintro hx ⟨n, r, hf⟩
    refine command_fails h rfl ?_
    have hs : s.scanning = true := by simp [State.scanning, hf]
    have hn : (anyPortArg x).isNone = false := by
      rw [anyPortArg_isNone, decide_eq_false]
      rintro ⟨h1, h2⟩
      rcases hx with hx | hx
      · exact h2 hx
      · omega
    rw [hn, hs]
    rfl
  · intro hx
    refine command_fails h rfl ?_
    rw [counterArg_isNone, kindArg_isNone, anyPortArg_isNone]
    have : (decide (4 ≤ x.toNat) || decide (16 ≤ y.toNat) || decide (48 ≤ z.toNat ∧ z ≠ 255)) = true := by
      simpa [or_assoc] using hx
    rw [this]
    rfl
  · intro hx
    refine command_fails h rfl ?_
    simp [firstFailure, counterArg_isNone, hx]
  · intro hx
    refine command_fails h rfl ?_
    simp [firstFailure, Config.profileFields, hx]
  · rintro rfl hwf hx
    obtain ⟨run, hrun⟩ := exec_writeProfile (s := s) hwf
    refine command_fails h hrun ?_
    have : runInRange x y = false := by
      rw [← Bool.not_eq_true, runInRange_iff]
      rintro ⟨h1, h2, h3⟩
      rcases hx with hx | hx | hx
      · omega
      · exact h2 hx
      · omega
    rw [this]
    rfl
  · rintro rfl hwf hx hy hxy hb
    obtain ⟨run, hrun⟩ := exec_writeProfile (s := s) hwf
    refine command_fails h hrun ?_
    rw [(runInRange_iff x y).mpr ⟨hx, hy, hxy⟩, hb]
    rfl
  · rintro rfl hwf hx hxy hy hr hrun'
    obtain ⟨run, hrun⟩ := exec_writeProfile (s := s) hwf
    refine command_fails h hrun ?_
    rw [(runInRange_iff x y).mpr ⟨by omega, hy, hr⟩, writeFields_window x y hx hxy hy hr, hrun']
    simp [firstFailure, fromCp1]
  · intro hx hy hxy hl
    change execWriteProfile cp x y vs s = _
    rw [execWriteProfile, if_pos]
    rwa [valueBytes, if_pos ((runInRange_iff x y).mpr ⟨hx, hy, hxy⟩)]
  · rintro rfl hb
    exact command_fails h rfl (by rw [hb]; rfl)
  · rintro rfl hx
    refine command_fails h rfl ?_
    rw [flagArg_isNone, decide_eq_true hx]
    rfl
  · rintro rfl hx hb
    refine command_fails h rfl ?_
    rw [flagArg_isNone, decide_eq_false (by omega), hb]
    rfl
  · rintro rfl hb
    exact command_fails h rfl (by rw [hb]; rfl)

end Sys2Proof.Machine

end

section
/-! PROOF. What reads copy, the event flags with the attention lines, the poll lines' conditions, the port indicators and
the pages of a save. -/

namespace Sys2Proof.Machine

open Sys2Proof.Spec

/-! ### Reads (R8, R56, R68, R78, R115, R164, R168, R171) -/

theorem whenBegins_eq {s : State} (hon : On s) (cp : CtlPort) (r : Reply) (begun : State) :
    whenBegins cp s r begun = if (s.cps.get cp).answer = .waiting r then .next begun else .next s := by
  rw [whenBegins, powered_next hon]
  by_cases h : (s.cps.get cp).answer = .waiting r <;> simp [State.waits, h]

/-- Settles O8: each read by its form, command or moment of the response. -/
theorem readsChangeNothingButTheirAnswer : Obligations.ReadsChangeNothingButTheirAnswer := by
  unfold Obligations.ReadsChangeNothingButTheirAnswer
  refine ⟨fun cp s h => ?_, fun cp s hon => ?_, fun cp copied s hon => ?_⟩
  · refine ⟨command_unchecked h _, command_unchecked h _, fun p => ⟨?_, ?_⟩, fun i => ?_, fun i hi => ?_,
      command_unchecked h _⟩
    · change execReadPort cp (.command (BitVec.ofNat 8 p.val)) s = _
      simp only [execReadPort, portArg_ofNat]
      exact command_runs h.1 h.2 rfl _
    · change execReadPorts cp (.command (BitVec.ofNat 8 p.val)) s = _
      simp only [execReadPorts, portArg_ofNat]
      exact command_runs h.1 h.2 rfl _
    · change execReadCounter cp (.command (BitVec.ofNat 8 i.val)) s = _
      simp only [execReadCounter, counterArg_ofNat]
      exact command_runs h.1 h.2 rfl _
    · change execReadProfile cp (.command (BitVec.ofNat 8 i)) s = _
      simp only [execReadProfile, toNat_byte (n := i) (by omega)]
      exact command_runs h.1 h.2 (firstFailure_none.mpr (by
        rintro c hc
        rw [List.mem_singleton.mp hc]
        exact decide_eq_false (not_le.mpr hi))) _
  · refine ⟨?_, ?_, ?_, ?_, ?_, fun i f hi hf => ?_, fun hn => ?_, ?_, rfl, rfl⟩
    · exact whenBegins_eq hon ..
    · exact whenBegins_eq hon ..
    · refine (powered_next hon _).trans ?_
      dsimp only
      cases (s.cps.get cp).answer with
      | waiting r => cases r <;> rfl
      | _ => rfl
    · refine (powered_next hon _).trans ?_
      dsimp only
      cases (s.cps.get cp).answer <;> rfl
    · refine (powered_next hon _).trans ?_
      dsimp only
      cases (s.cps.get cp).answer <;> rfl
    · refine (powered_next hon _).trans ?_
      have h117 : i < 118 := (List.getElem?_eq_some_iff.mp hf).1
      have next : nextField i = if i = 117 then 0 else i + 1 := by
        unfold nextField Config.profileFields
        split <;> split <;> omega
      have bytes : s.fieldBytesAt i = beBytes f.width (s.profile.value f) := by
        rw [State.fieldBytesAt, fieldAt, hf]
        rfl
      rw [hi]
      dsimp only
      rw [bytes, next]
      rfl
    · refine (powered_next hon _).trans ?_
      split
      · next i hi => exact absurd hi (hn i)
      · rfl
    · refine (whenBegins_eq hon ..).trans ?_
      cases s.find <;> rfl
  · refine ⟨fun ha => ?_, fun hn => ?_⟩
    · refine (powered_next hon _).trans ?_
      rw [ha]
      rfl
    · refine (powered_next hon _).trans ?_
      split
      · next x hx => exact absurd hx (hn x)
      · rfl

/-! ### Event flags and attention lines (R161 to R163, R185) -/

/-- The place of a flag's bit in the flags field. -/
def EventFlag.place : EventFlag → Nat
  | .incident => 15
  | .ringLoss => 14
  | .findDone => 13
  | .tapPressure => 12
  | .tapDown => 11
  | .pollSilent => 10
  | .classWarn => 9
  | .holdBroken => 8
  | .storeStatus => 7

theorem EventFlag.bit_eq (f : EventFlag) : f.bit = BitVec.twoPow 16 f.place := by cases f <;> decide

theorem EventFlag.place_lt (f : EventFlag) : f.place < 16 := by cases f <;> decide

theorem EventFlag.and_bit_eq_zero (w : Word16) (f : EventFlag) : w &&& f.bit = 0 ↔ w.getLsbD f.place = false := by
  have one : BitVec.twoPow 16 f.place ≠ 0 := by cases f <;> decide
  rw [f.bit_eq, BitVec.and_twoPow]
  cases w.getLsbD f.place with
  | false => exact iff_of_true rfl rfl
  | true => exact iff_of_false one (by simp)

set_option Elab.async false in
/-- A flag stands set in a flags field as its bit does. -/
theorem EventFlag.decide_and_bit (w : Word16) (f : EventFlag) :
    decide (w &&& f.bit ≠ 0) = w.getLsbD f.place ∧ decide (w &&& f.bit = 0) = !w.getLsbD f.place := by
  have h := f.and_bit_eq_zero w
  cases hb : w.getLsbD f.place with
  | false => exact ⟨decide_eq_false (not_not.mpr (h.mpr hb)), decide_eq_true (h.mpr hb)⟩
  | true =>
    have hn : w &&& f.bit ≠ 0 := fun hz => by rw [h.mp hz] at hb; cases hb
    exact ⟨decide_eq_true hn, decide_eq_false hn⟩

theorem and_flagBits_and_bit (w : Word16) (f : EventFlag) : w &&& flagBits &&& f.bit = w &&& f.bit := by
  have inside : flagBits &&& f.bit = f.bit := by cases f <;> decide
  rw [BitVec.and_assoc, inside]

/-- The flags field carries the nine flags and nothing else. -/
theorem and_flagBits_ne_zero (w : Word16) : w &&& flagBits ≠ 0 ↔ ∃ f : EventFlag, w &&& f.bit ≠ 0 := by
  constructor
  · intro h
    by_contra hn
    have none (f : EventFlag) : w &&& f.bit = 0 := not_not.mp fun hf => hn ⟨f, hf⟩
    have flags : flagBits = EventFlag.incident.bit ||| EventFlag.ringLoss.bit ||| EventFlag.findDone.bit
        ||| EventFlag.tapPressure.bit ||| EventFlag.tapDown.bit ||| EventFlag.pollSilent.bit ||| EventFlag.classWarn.bit
        ||| EventFlag.holdBroken.bit ||| EventFlag.storeStatus.bit := by decide
    refine h ?_
    rw [flags]
    simp only [BitVec.and_or_distrib_left, none, BitVec.or_self]
  · rintro ⟨f, hf⟩ h
    rw [← and_flagBits_and_bit, h] at hf
    exact hf (BitVec.zero_and)

/-- A flag is left by the clearing of the captured flags unless it was captured set and has not occurred since. -/
theorem clearCaptured_has (c : CtlRec) (captured : Word16) (f : EventFlag) : (c.clearCaptured captured).has f =
    (c.has f && !(decide (captured &&& f.bit ≠ 0) && decide (c.recurred &&& f.bit = 0))) := by
  have hp := f.place_lt
  unfold CtlRec.has CtlRec.clearCaptured
  rw [(f.decide_and_bit _).1, (f.decide_and_bit _).1, (f.decide_and_bit _).1, (f.decide_and_bit _).2]
  simp [hp]

set_option Elab.async false in
theorem beBytes_two (w : Word16) : beBytes 2 w.toNat = [(w >>> 8).setWidth 8, w.setWidth 8] := by
  have high : BitVec.ofNat 8 (w.toNat / 256) = (w >>> 8).setWidth 8 := by
    apply BitVec.eq_of_toNat_eq
    simp [Nat.shiftRight_eq_div_pow]
  have low : BitVec.ofNat 8 (w.toNat / 1) = w.setWidth 8 := by
    apply BitVec.eq_of_toNat_eq
    simp
  simp only [beBytes, pow_one, pow_zero, high, low]

theorem raise_has (c : CtlRec) (f g : EventFlag) : (c.raise f).has g = (c.has g || decide (f = g))
    ∧ decide ((c.raise f).recurred &&& g.bit ≠ 0) = (decide (c.recurred &&& g.bit ≠ 0) || decide (f = g)) := by
  have comm : decide (f = g) = decide (g = f) := by simp [eq_comm]
  rw [comm]
  exact ⟨EventFlag.or_bit_and_bit c.flags f g, EventFlag.or_bit_and_bit c.recurred f g⟩

/-- Settles O24: the capture, the clearing, the rise of chip select, the flags raised and the mask. -/
theorem flagsMasksAndTheAttentionLine : Obligations.FlagsMasksAndTheAttentionLine := by
  unfold Obligations.FlagsMasksAndTheAttentionLine
  refine ⟨fun s cp captured shifted => ?_, fun s cp mask h => ?_⟩
  · refine ⟨fun h => command_unchecked h _, fun hon => ?_, fun hon ha => ?_, fun hon hn => ?_, fun hon => ?_,
      raise_has _⟩
    · refine (whenBegins_eq hon ..).trans ?_
      split
      · rw [← beBytes_two]
        simp [State.respond, State.updCtl]
      · rfl
    · refine ⟨{ (s.cps.get cp).clearCaptured captured with answer := .fixed }, ?_, rfl, clearCaptured_has _ _⟩
      refine (powered_next hon _).trans ?_
      rw [ha]
      rfl
    · refine (powered_next hon _).trans ?_
      split
      · next w hw => exact absurd hw (hn w)
      · rfl
    · cases hp : (s.cps.get cp).phase with
      | idle =>
        refine ⟨s.cps.get cp, (powered_next hon _).trans ?_, rfl, fun h => absurd rfl h⟩
        rw [hp, PerCp.set_get_self]
      | receiving =>
        refine ⟨(s.cps.get cp).close [], (powered_next hon _).trans ?_, rfl, fun _ w h => by cases h⟩
        rw [hp]
        rfl
      | answering =>
        refine ⟨(s.cps.get cp).close ((s.cps.get cp).final shifted), (powered_next hon _).trans ?_, rfl,
          fun _ w h => by cases h⟩
        rw [hp]
        rfl
  · let masked : State := s.updCtl cp fun c => { c with mask := mask &&& flagBits }
    have stored : ((ok masked cp).cps.get cp).mask = mask &&& flagBits := by
      simp [ok, masked, State.answer, State.updCtl]
    have flags : ((ok masked cp).cps.get cp).flags = (s.cps.get cp).flags := by
      simp [ok, masked, State.answer, State.updCtl]
    refine ⟨ok masked cp, command_unchecked h _, by rw [stored]; rfl, fun f => ?_, ?_⟩
    · rw [stored, and_flagBits_and_bit]
    · rw [State.attention, stored, flags, decide_eq_true_iff, ← BitVec.and_assoc, and_flagBits_ne_zero]
      refine exists_congr fun f => ?_
      have shown : ((ok masked cp).cps.get cp).has f = (s.cps.get cp).has f := by rw [CtlRec.has, flags]; rfl
      rw [shown, CtlRec.has, decide_eq_true_iff, Ne, f.and_bit_eq_zero, Ne, f.and_bit_eq_zero, Ne, f.and_bit_eq_zero,
        BitVec.getLsbD_and]
      simp

/-! ### Poll lines (R143, R148, R151) -/

/-- Settles O26: a phase written, or the expired timer of a silent line. -/
theorem pollLinesStartStopAndFallSilent : Obligations.PollLinesStartStopAndFallSilent := by
  unfold Obligations.PollLinesStartStopAndFallSilent
  refine ⟨fun s l hon => ⟨powered_next hon _, powered_next hon _⟩, fun s l hon => (powered_next hon _).trans ?_⟩
  split <;> rfl

/-! ### Codes on a line, two bits each (R185) -/

theorem pairBits_concat (codes : List Nat) (c : Nat) : pairBits (codes ++ [c]) = pairBits codes * 4 + c := by
  simp [pairBits]

/-- The codes sent two bits each are the digits to base 4, the last code the lowest. -/
theorem pairBits_digit (codes : List Nat) (h : ∀ c ∈ codes, c < 4) (k : Nat) (hk : k < codes.length) :
    pairBits codes / 4 ^ k % 4 = codes.reverse[k]'(by simpa using hk) := by
  induction codes using List.reverseRecOn generalizing k with
  | nil => simp at hk
  | append_singleton codes c ih =>
    have hc : c < 4 := h c (by simp)
    rw [pairBits_concat]
    cases k with
    | zero => simp; omega
    | succ k =>
      have step : (pairBits codes * 4 + c) / 4 ^ (k + 1) = pairBits codes / 4 ^ k := by
        rw [pow_succ', ← Nat.div_div_eq_div_mul]
        congr 1
        omega
      rw [step, ih (fun x hx => h x (by simp [hx])) k (by simpa using hk)]
      simp

set_option Elab.async false in
theorem pairBits_lt (codes : List Nat) (h : ∀ c ∈ codes, c < 4) : pairBits codes < 4 ^ codes.length := by
  induction codes using List.reverseRecOn with
  | nil => simp [pairBits]
  | append_singleton codes c ih =>
    have hc : c < 4 := h c (by simp)
    have hi := ih fun x hx => h x (by simp [hx])
    rw [pairBits_concat, List.length_append, List.length_singleton, pow_succ]
    omega

/-! ### Port indicators (R166, R167) -/

theorem pattern_eq (r : PortRec) : r.pattern =
    if r.mode = .held then some 3
    else if r.mode = .pinned then none
    else if r.state = .listen then some 0
    else if r.state = .cut then some 1
    else if r.state = .shut then some 2
    else none := by
  unfold PortRec.pattern
  cases r.mode with
  | held => rfl
  | pinned => rfl
  | auto => cases r.state <;> rfl

theorem LedCode.bits_lt (c : LedCode) : c.bits.toNat < 4 := c.bits.isLt

/-- The bits of a refresh hold the code of guard port p at digit p to base 4. -/
theorem ledBits_digit (code : Port → LedCode) (p : Port) :
    (ledBits (allPorts.map code).reverse).toNat / 4 ^ p.val % 4 = (code p).bits.toNat := by
  let digits : List Nat := (allPorts.map code).reverse.map fun c => c.bits.toNat
  have small : ∀ c ∈ digits, c < 4 := by
    intro c hc
    obtain ⟨x, -, rfl⟩ := List.mem_map.mp hc
    exact x.bits_lt
  have length : digits.length = 48 := by simp [digits, allPorts]
  have whole : (ledBits (allPorts.map code).reverse).toNat = pairBits digits := by
    have := pairBits_lt digits small
    rw [length] at this
    exact (BitVec.toNat_ofNat ..).trans (Nat.mod_eq_of_lt this)
  rw [whole, pairBits_digit digits small p.val (by rw [length]; exact p.isLt)]
  simp [digits, allPorts]

/-- Settles O29: the code of each port by its pattern, and the digits of the chain. -/
theorem indicatorsShowModeAndState : Obligations.IndicatorsShowModeAndState := by
  unfold Obligations.IndicatorsShowModeAndState
  intro s hon pattern code
  have hcode : code = s.ledCode := funext fun p => by
    rw [State.ledCode, pattern_eq]
    rfl
  rw [hcode]
  refine ⟨?_, fun p => ?_, fun codes => ⟨fun h => ?_, fun h => ?_⟩⟩
  · refine (powered_next hon _).trans ?_
    rw [List.map_reverse]
  · rw [ledBits_digit]
    cases s.ledCode p <;> rfl
  · refine (powered_next hon _).trans ?_
    rw [h]
  · refine (powered_next hon _).trans ?_
    rw [h]

/-! ### The save (R180) -/

set_option Elab.async false in
theorem pages_append (image : List Byte) (n : Nat) :
    (List.range n).flatMap (fun k => (image.drop (k * 16)).take 16) = image.take (n * 16) := by
  induction n with
  | zero => simp
  | succ n ih => rw [List.range_succ, List.flatMap_append, ih, List.flatMap_singleton, add_mul, one_mul, List.take_add]

/-- Settles O54: the rows of a save by what the store holds. -/
theorem savesWriteSixteenPages : Obligations.SavesWriteSixteenPages := by
  unfold Obligations.SavesWriteSixteenPages
  refine fun s j => ⟨fun h hc => ?_, fun hon hn => ⟨?_, ?_, ?_⟩, fun hon hj => ⟨?_, ?_, ?_⟩, fun hl => ⟨?_, fun k hk => ?_⟩⟩
  · refine command_runs h.1 h.2 ?_ _
    simp [firstFailure, fromCp1, State.storeBusy, hc]
  · exact (powered_next hon _).trans (by rw [hn])
  · exact (powered_next hon _).trans (by rw [hn])
  · exact (powered_next hon _).trans (by rw [hn])
  · refine (powered_next hon _).trans ?_
    rw [hj]
    rfl
  · refine (powered_next hon _).trans ?_
    rw [hj]
    rfl
  · refine (powered_next hon _).trans ?_
    rw [hj]
    rfl
  · refine (pages_append j.image 16).trans ?_
    rw [List.take_of_length_le (by omega)]
  · rw [SaveJob.pageBytes, List.length_take, List.length_drop, hl]
    change min 16 (256 - k * 16) = 16
    omega

end Sys2Proof.Machine

end

section
/-! PROOF. The requests that the gate controller takes, and the expiries of its port timers (sections 7.2 to 7.4). -/

namespace Sys2Proof.Machine

open Sys2Proof.Spec

/-! ### The turn of a request (R43, R142, log entry 3) -/

theorem tells_eq (k : GateReqKind) : tells k = match k.fact with
    | none => 0
    | some .link => 1
    | some .level => 2
    | some .score => 3 := by
  cases k <;> rfl

theorem tells_zero_iff (k : GateReqKind) : tells k = 0 ↔ k.fact = none := by cases k <;> simp [tells, GateReqKind.fact]

theorem tells_eq_iff (k l : GateReqKind) : tells k = tells l ↔ k.fact = l.fact := by
  rw [tells_eq, tells_eq]
  cases k.fact with
  | none => cases l.fact with
    | none => simp
    | some y => cases y <;> simp
  | some x => cases l.fact with
    | none => cases x <;> simp
    | some y => cases x <;> cases y <;> simp

/-- The order of the model's queue is the order of the statements. -/
theorem before_iff (e q : GateReq) : e.before q = true ↔ Precedes e q := by
  have arrival : e.arrival ≠ none ↔ e.arrival.isSome = true := by cases e.arrival <;> simp
  have told : tells e.kind ≠ 0 ↔ e.kind.fact.isSome = true := by
    rw [Ne, tells_zero_iff]
    cases e.kind.fact <;> simp
  simp only [GateReq.before, Precedes, arrival, told, tells_eq_iff, Bool.and_eq_true, Bool.or_eq_true, decide_eq_true_eq]

theorem takeTurn_inTurn {s : State} {own : GateReq → Bool} {n : Nat} {r : GateReq} {rest : List GateReq}
    (h : InTurn s own n r rest) : takeTurn own n s.gateReqs = some (r, rest) := by
  obtain ⟨hr, xs, ys, hq, rfl, rfl, hx⟩ := h
  rw [hq]
  refine takeTurn_append hr xs ys fun q hm => ?_
  rw [← Bool.not_eq_true, before_iff]
  exact hx q hm

theorem inTurn_takeTurn {s : State} {own : GateReq → Bool} {n : Nat} {r : GateReq} {rest : List GateReq}
    (h : takeTurn own n s.gateReqs = some (r, rest)) : InTurn s own n r rest := by
  obtain ⟨hr, xs, ys, hq, hrest, hn, hx⟩ := takeTurn_some h
  refine ⟨hr, xs, ys, hq, hrest, hn, fun q hm => ?_⟩
  rw [← before_iff, hx q hm]
  exact Bool.false_ne_true

/-- A row whose request may be taken has its effect on the state without the request. -/
theorem powered_takes {s : State} {own : GateReq → Bool} {n : Nat} {r : GateReq} {rest : List GateReq} (hs : Running s)
    (h : InTurn s own n r rest) (act : State → GateReqKind → State) :
    powered s (s.takeRequest own n act) = .next (act { s with gateReqs := rest } r.kind) := by
  rw [powered_next hs.1, State.takeRequest, if_pos hs.2, takeTurn_inTurn h]

/-- The wanted request of a turn stands at one place only. -/
theorem turn_unique {own : GateReq → Bool} {xs ys xs' ys' : List GateReq} {r q : GateReq} (hr : own r = true)
    (hq : own q = true) (heq : xs ++ r :: ys = xs' ++ q :: ys') (hn : xs.countP own = xs'.countP own) :
    xs = xs' ∧ r = q := by
  rcases List.append_eq_append_iff.mp heq with ⟨zs, hx, hz⟩ | ⟨zs, hx, hz⟩
  · cases zs with
    | nil => simp_all
    | cons z zs =>
      obtain ⟨rfl, -⟩ := List.cons.inj hz
      rw [hx, List.countP_append, List.countP_cons_of_pos hr] at hn
      omega
  · cases zs with
    | nil => simp_all
    | cons z zs =>
      obtain ⟨rfl, -⟩ := List.cons.inj hz
      rw [hx, List.countP_append, List.countP_cons_of_pos hq] at hn
      omega

/-- A row changes nothing where the engine is HELD, where its request does not wait, or where it stands behind one that has
to be taken first. -/
theorem powered_blocked {s : State} (hon : On s) (own : GateReq → Bool) (n : Nat) (act : State → GateReqKind → State)
    (h : s.running = false ∨ s.gateReqs.countP own ≤ n ∨ Behind s own n) :
    powered s (s.takeRequest own n act) = .next s := by
  rw [powered_next hon]
  rcases takeRequest_cases s own n act with h' | ⟨r, rest, hrun, ht, -⟩
  · rw [h']
  · obtain ⟨hr, xs, ys, hq, -, hn, hx⟩ := takeTurn_some ht
    rcases h with h | h | ⟨xs', q, ys', e, hq', hown, hn', he, hp⟩
    · rw [h] at hrun
      cases hrun
    · rw [hq, List.countP_append, List.countP_cons_of_pos hr] at h
      omega
    · obtain ⟨rfl, rfl⟩ := turn_unique hr hown (hq.symm.trans hq') (hn.trans hn'.symm)
      rw [← before_iff, hx e he] at hp
      cases hp

set_option Elab.async false in
theorem scoreChange_eq (p : Port) : scoreChange p = echoChange p := funext fun _ => Bool.or_comm ..

theorem causeOn_eq (p : Port) (c : LadderCause) : causeOn p c = causeOf p c := funext fun q => by
  unfold causeOn causeOf
  cases q.kind <;> rfl

theorem pinnedLoopOn_eq (p : Port) : pinnedLoopOn p = pinnedLoopOf p := funext fun q => by
  unfold pinnedLoopOn pinnedLoopOf
  cases q.kind <;> rfl

theorem noCandidate_eq : noCandidate = isNoCandidate := funext fun q => by
  unfold noCandidate isNoCandidate
  cases q.kind <;> rfl

/-- Settles O12: each row takes its own request, and the urgent request row one that waits. -/
theorem requestRowsWithoutTheirRequestChangeNothing : Obligations.RequestRowsWithoutTheirRequestChangeNothing := by
  unfold Obligations.RequestRowsWithoutTheirRequestChangeNothing
  intro s p c n hon
  dsimp only
  rw [scoreChange_eq, causeOn_eq, pinnedLoopOn_eq, noCandidate_eq]
  refine ⟨powered_blocked hon _ _ _, powered_blocked hon _ _ _, powered_blocked hon _ _ _, powered_blocked hon _ _ _,
    powered_blocked hon _ _ _, powered_blocked hon _ _ _, powered_blocked hon _ _ _, powered_blocked hon _ _ _,
    powered_blocked hon _ _ _, powered_blocked hon _ _ _, fun confirm h => (powered_next hon _).trans ?_⟩
  rw [if_neg]
  rintro ⟨hr, hm⟩
  rcases h with h | h
  · rw [h] at hr
    cases hr
  · exact h hm

/-! ### A port enters a state (R119 to R127, R131) -/

theorem updPort_eq (s : State) (p : Port) (f : PortRec → PortRec) :
    s.updPort p f = { s with ports := s.ports.set p (f s.ports[p]) } := rfl

theorem toListen_eq (r : PortRec) : r.toListen = inListen r := rfl

theorem toDown_eq (r : PortRec) : r.toDown = inDown r := rfl

theorem toOpen_eq (r : PortRec) : r.toOpen = inOpen r := rfl

theorem releasable_eq (r : PortRec) : r.releasable = calmAndClean r := by
  simp [PortRec.releasable, calmAndClean, beq_eq_decide]

theorem toCut_eq (r : PortRec) : r.toCut = inCut r := by
  have timer : (if r.releasable then GateTimer.started else .stopped) = ⟨calmAndClean r, 0, false⟩ := by
    rw [releasable_eq]
    cases calmAndClean r <;> rfl
  rw [PortRec.toCut, timer]
  rfl

set_option Elab.async false in
theorem toShut_eq (r : PortRec) (hb hmax : Nat) : r.toShut hb hmax = inShut r hb hmax := rfl

theorem listen_eq (s : State) (p : Port) : s.listen p = enterListen s p (s.port p) := by
  have kept : (fun q => decide (¬(q.port = some p ∧ q.kind = .listenCompletion)))
      = fun q => !named p .listenCompletion q := funext fun q => by
    rw [named]
    exact decide_not
  rw [State.listen, kept]
  rfl

/-- Settles O10: a link change by mode and state. -/
theorem linkChangesTaken : Obligations.LinkChangesTaken := by
  unfold Obligations.LinkChangesTaken
  refine ⟨fun s p rest hs ⟨q, h⟩ => ?_, fun s p rest hs ⟨q, h⟩ => ?_⟩
  · refine (powered_takes hs h _).trans ?_
    dsimp only
    rw [State.takeLinkUp]
    dsimp only
    rw [listen_eq]
    rfl
  · refine (powered_takes hs h _).trans ?_
    dsimp only
    rw [State.takeLinkDown]
    dsimp only
    rfl

/-! ### Crossings and score changes (R44, R46, R108, R123, R125) -/

theorem updPort_unchanged (s : State) (p : Port) {f : PortRec → PortRec} (h : f (s.port p) = s.port p) :
    s.updPort p f = s := by
  rw [updPort_eq, h]
  congr 1
  exact Vector.set_getElem_self ..

theorem updPort_startRelease (s : State) (p : Port) : s.updPort p PortRec.startRelease =
    if (s.port p).mode = .auto ∧ (s.port p).state = .cut ∧ calmAndClean (s.port p) = true
        ∧ (s.port p).releaseTimer.running = false then
      { s with ports := s.ports.set p { s.port p with releaseTimer := ⟨true, 0, false⟩ } }
    else s := by
  rw [← releasable_eq]
  split
  · next h => rw [updPort_eq, PortRec.startRelease, if_pos h]; rfl
  · next h => exact updPort_unchanged s p (if_neg h)

theorem updPort_stopRelease (s : State) (p : Port) : s.updPort p PortRec.stopRelease =
    if (s.port p).mode = .auto ∧ (s.port p).state = .cut then
      { s with ports := s.ports.set p { s.port p with releaseTimer := ⟨false, 0, false⟩ } }
    else s := by
  split
  · next h => rw [updPort_eq, PortRec.stopRelease, if_pos h]; rfl
  · next h => exact updPort_unchanged s p (if_neg h)

theorem updPort_calmed (s : State) (p : Port) : s.updPort p PortRec.calmed =
    if (s.port p).mode = .auto ∧ (s.port p).state = .watch then { s with ports := s.ports.set p (inOpen (s.port p)) }
    else s.updPort p PortRec.startRelease := by
  split
  · next h => rw [updPort_eq, PortRec.calmed, if_pos h]; rfl
  · next h => rw [updPort_eq, PortRec.calmed, if_neg h]; rfl

/-- The oldest score change of a port of one direction that may be taken is its oldest score change: the changes of one
condition are taken in their order. -/
theorem inTurn_scoreChange {s : State} {p : Port} {k : GateReqKind} {q : GateReq} {rest : List GateReq}
    (hk : k = .echoToZero ∨ k = .echoFromZero) (h : InTurn s (named p k) 0 q rest) :
    InTurn s (echoChange p) 0 q rest ∧ q.kind = k := by
  obtain ⟨hq, xs, ys, hs, hrest, hn, hx⟩ := h
  obtain ⟨hport, hkind⟩ : q.port = some p ∧ q.kind = k := of_decide_eq_true hq
  have score : tells q.kind = 3 := by
    rw [hkind]
    rcases hk with rfl | rfl <;> rfl
  have changes (e : GateReq) : echoChange p e = true → e.port = some p ∧ tells e.kind = 3 := by
    simp only [echoChange, exactly, Bool.or_eq_true, decide_eq_true_eq]
    rintro (⟨h1, h2⟩ | ⟨h1, h2⟩)
    · exact ⟨h1, by rw [h2]; rfl⟩
    · exact ⟨h1, by rw [h2]; rfl⟩
  refine ⟨⟨?_, xs, ys, hs, hrest, ?_, hx⟩, hkind⟩
  · simp only [echoChange, exactly, Bool.or_eq_true, decide_eq_true_eq, hport, hkind, true_and]
    exact hk.symm
  · rw [List.countP_eq_zero]
    intro e he hc
    obtain ⟨h1, h2⟩ := changes e hc
    exact hx e he ⟨h1.trans hport.symm, .inr ⟨by rw [h2]; decide, h2.trans score.symm⟩⟩

/-- Settles O11: a crossing or a score change by what the port is. -/
theorem crossingsAndScoreChangesTaken : Obligations.CrossingsAndScoreChangesTaken := by
  unfold Obligations.CrossingsAndScoreChangesTaken
  refine ⟨fun s p rest hs => ⟨fun ⟨q, h⟩ => ?_, fun ⟨q, h⟩ => ?_, fun ⟨q, h⟩ => ?_⟩,
    fun s p rest hs => ⟨fun ⟨q, h⟩ => ?_, fun ⟨q, h⟩ => ?_⟩⟩
  · exact powered_takes hs h _
  · refine (powered_takes hs h _).trans ?_
    rw [updPort_calmed, updPort_startRelease]
  · refine (powered_takes hs h _).trans ?_
    rw [updPort_stopRelease]
  · obtain ⟨h', hk⟩ := inTurn_scoreChange (.inl rfl) h
    refine (powered_takes hs h' _).trans ?_
    rw [if_pos hk, updPort_startRelease]
  · obtain ⟨h', hk⟩ := inTurn_scoreChange (.inr rfl) h
    refine (powered_takes hs h' _).trans ?_
    rw [if_neg (by rw [hk]; simp), updPort_stopRelease]

/-! ### Causes (R127, R130 to R134) -/

theorem reportDue_eq (s : State) (p : Port) : s.reportDue p = holdOffOver s p := by
  unfold State.reportDue holdOffOver
  cases (s.port p).lastReport <;> rfl

theorem report_eq (s : State) (p : Port) (r : IncidentReq) : s.report p r = underHoldOff s p r := by
  rw [State.report, reportDue_eq]
  rfl

set_option Elab.async false in
theorem setLastCause_port (s : State) (p : Port) (c : Cause) :
    (s.setLastCause p c).port p = { s.port p with lastCause := some c } := State.updPort_self s p _

theorem cuttable_iff (x : PState) : x.cuttable = true ↔ x = .listen ∨ x = .opened ∨ x = .watch := by
  cases x <;> simp [PState.cuttable]

theorem shuttable_iff (x : PState) : x.shuttable = true ↔ ¬(x = .down ∨ x = .shut) := by
  cases x <;> simp [PState.shuttable]

section
variable {s : State} {p : Port} (c : LadderCause) (x : CauseParts)

theorem applyCause_held (h : (s.port p).mode = .held) : s.applyCause p c x = s := by
  rw [State.applyCause, h]

theorem applyCause_ignore (h : s.profile.action c = .ignore) : s.applyCause p c x = s := by
  rw [State.applyCause, h]
  cases (s.port p).mode <;> rfl

theorem applyCause_pinned (hm : (s.port p).mode = .pinned) (ha : s.profile.action c ≠ .ignore) :
    s.applyCause p c x = (s.setLastCause p (.ladder c)).applyAction p c x .report := by
  rw [State.applyCause, hm]
  cases h : s.profile.action c with
  | ignore => exact absurd h ha
  | _ => rfl

theorem applyCause_auto (hm : (s.port p).mode = .auto) (ha : s.profile.action c ≠ .ignore) :
    s.applyCause p c x = (s.setLastCause p (.ladder c)).applyAction p c x (s.profile.action c) := by
  rw [State.applyCause, hm]
  cases h : s.profile.action c with
  | ignore => exact absurd h ha
  | _ => rfl

/-- A report of a cause on a port whose record it is. -/
theorem report_cause {r : PortRec} (h : s.ports[p] = r) (a : IncAction) :
    s.report p (causeReq p (.ladder c) x s.ports[p] s.ports[p] a 0) = underHoldOff s p
      (causeRecord p (.ladder c) r a 0 x.partner (some (x.level.getD r.level)) x.delay x.purpose) := by
  rw [report_eq, h]
  rfl

theorem applyAction_cut {r : PortRec} (h : s.ports[p] = r) : s.applyAction p c x .cut =
    if r.state = .listen ∨ r.state = .opened ∨ r.state = .watch then
      State.record { s with ports := s.ports.set p (inCut r) } (causeRecord p (.ladder c) (inCut r) .cut 0 x.partner
        (some (x.level.getD r.level)) x.delay x.purpose)
    else underHoldOff s p
      (causeRecord p (.ladder c) r .cut 0 x.partner (some (x.level.getD r.level)) x.delay x.purpose) := by
  rw [State.applyAction, report_cause c x h, updPort_eq, toCut_eq, h]
  simp only [cuttable_iff]
  rfl

set_option Elab.async false in
theorem applyAction_shut {r shut : PortRec} (h : s.ports[p] = r) (hs : inShut r s.profile.hb s.profile.hmax = shut) :
    s.applyAction p c x .shut =
    if r.state = .down ∨ r.state = .shut then underHoldOff s p
      (causeRecord p (.ladder c) r .shut 0 x.partner (some (x.level.getD r.level)) x.delay x.purpose)
    else State.record { s with ports := s.ports.set p shut } (causeRecord p (.ladder c) shut .shut shut.hold x.partner
        (some (x.level.getD r.level)) x.delay x.purpose) := by
  rw [State.applyAction, report_cause c x h, h, ← hs]
  simp only [shuttable_iff, ite_not]
  rfl

end

/-- Settles O13: the mode, then the action of the ladder, then the state. -/
theorem causesTakeTheirLadderAction : Obligations.CausesTakeTheirLadderAction := by
  unfold Obligations.CausesTakeTheirLadderAction
  intro s p turn rest c partner level delay purpose mark hs h u r v rec' closed shut
  rw [causeOn_eq] at h
  refine (powered_takes hs h _).trans (congrArg Host.Outcome.next ?_)
  have hv : v.port p = r := setLastCause_port u p (.ladder c)
  have last (x : PortRec) : v.ports.set p x = s.ports.set p x := Vector.set_set ..
  change u.applyCause p c ⟨partner, level, delay, purpose⟩ = _
  split
  · next hm => exact applyCause_held (s := u) c _ hm
  · next ha _ => exact applyCause_ignore (s := u) c _ ha
  · next hm ha =>
    rw [applyCause_pinned (s := u) c _ hm ha]
    exact report_cause c _ hv .report
  · next hm ha =>
    rw [applyCause_auto (s := u) c _ hm (ne_of_eq_of_ne ha (by simp)), show u.profile.action c = _ from ha]
    exact report_cause c _ hv .report
  · next hm ha =>
    rw [applyCause_auto (s := u) c _ hm (ne_of_eq_of_ne ha (by simp)), show u.profile.action c = _ from ha]
    refine (applyAction_cut c _ hv).trans ?_
    rw [last]
  · next hm ha =>
    rw [applyCause_auto (s := u) c _ hm (ne_of_eq_of_ne ha (by simp)), show u.profile.action c = _ from ha]
    refine (applyAction_shut c _ hv rfl).trans ?_
    rw [last]

/-- Settles O15: both requests are recorded and no port record but the last cause and the report time changes. -/
theorem pinnedLoopAndNoCandidateAreReported : Obligations.PinnedLoopAndNoCandidateAreReported := by
  unfold Obligations.PinnedLoopAndNoCandidateAreReported
  intro s p q turn level mark rest hs u r
  refine ⟨fun h => ?_, fun h => ?_⟩
  · rw [pinnedLoopOn_eq] at h
    refine (powered_takes hs h _).trans (congrArg Host.Outcome.next ?_)
    change u.takePinnedLoop p q = _
    rw [State.takePinnedLoop, report_eq]
    rfl
  · rw [noCandidate_eq] at h
    exact powered_takes hs h _

/-! ### Openings and expiries (R121, R122, R124 to R126) -/

/-- Settles O16: each row by the condition under which it acts. -/
theorem portTimersAndListenCompletionsAct : Obligations.PortTimersAndListenCompletionsAct := by
  unfold Obligations.PortTimersAndListenCompletionsAct
  refine ⟨⟨fun s p rest hs ⟨q, h⟩ => powered_takes hs h _, fun s p hon => ?_⟩,
    fun s p hon => ⟨?_, ?_⟩, fun s p hon => powered_next hon _⟩
  · refine (powered_next hon _).trans (congrArg Host.Outcome.next ?_)
    dsimp only
    rw [State.setLastCause, State.updPort_updPort]
    rfl
  · rw [← listen_eq]
    exact powered_next hon _
  · rw [← listen_eq]
    exact powered_next hon _

end Sys2Proof.Machine

end

section
/-! PROOF. What a cause can do to a presented code, and the manual changes (sections 7.3, 7.5). -/

namespace Sys2Proof.Machine

open Sys2Proof.Spec

/-! ### Causes close (R127, R130) -/

/-- What a cause may make of a port record: not a less closed code, not a smaller penalty, and SHUT with the hold that its
new penalty earns. -/
structure PortRec.Closes (hb hmax : Nat) (r x : PortRec) : Prop where
  code : r.presented.rank ≤ x.presented.rank
  penalty : r.penalty ≤ x.penalty
  hold : x.state ≠ r.state → x.state = .shut →
    x.hold = min (hb * 2 ^ (x.penalty - 1)) hmax ∧ x.penalty = min (r.penalty + 1) 7

theorem PortRec.Closes.same {hb hmax : Nat} {r x : PortRec} (hm : x.mode = r.mode) (hs : x.state = r.state)
    (hp : x.penalty = r.penalty) : r.Closes hb hmax x where
  code := by unfold PortRec.presented; rw [hm, hs]
  penalty := hp.ge
  hold := fun h => absurd hs h

theorem PortRec.Closes.cut {hb hmax : Nat} {r : PortRec} (hm : r.mode = .auto) (hs : r.state.cuttable = true) :
    r.Closes hb hmax r.toCut where
  code := by
    have after : r.toCut.presented = .cut := by unfold PortRec.presented; rw [show r.toCut.mode = .auto from hm]; rfl
    rw [after, PortRec.presented, hm]
    generalize r.state = st at hs
    revert hs
    cases st <;> decide
  penalty := le_refl _
  hold := fun _ h => by cases h

theorem PortRec.Closes.shut {hb hmax : Nat} {r : PortRec} (hm : r.mode = .auto) (hp : r.penalty ≤ 7) :
    r.Closes hb hmax (r.toShut hb hmax) where
  code := by
    have after : (r.toShut hb hmax).presented = .shut := by
      unfold PortRec.presented; rw [show (r.toShut hb hmax).mode = .auto from hm]; rfl
    rw [after]
    cases r.presented <;> decide
  penalty := le_min (Nat.le_succ _) hp
  hold := fun _ _ => ⟨rfl, rfl⟩

/-- Every port of the one state closes in the other. -/
def State.Closes (s t : State) : Prop := ∀ q : Port, s.ports[q].Closes s.profile.hb s.profile.hmax t.ports[q]

theorem closes_refl (s : State) : s.Closes s := fun _ => .same rfl rfl rfl

theorem closes_updPort {s : State} {p : Port} {f : PortRec → PortRec}
    (h : (s.port p).Closes s.profile.hb s.profile.hmax (f (s.port p))) : s.Closes (s.updPort p f) := fun q => by
  by_cases hq : q = p
  · rw [hq, s.updPort_self]
    exact h
  · rw [s.updPort_other hq]
    exact .same rfl rfl rfl

theorem closes_report (s : State) (p : Port) (r : IncidentReq) : s.Closes (s.report p r) := by
  unfold State.report
  split
  · have stamped : s.Closes (s.updPort p fun x => { x with lastReport := some s.msTime }) :=
      closes_updPort (.same rfl rfl rfl)
    exact stamped
  · exact closes_refl s

/-- The last cause does not matter to what closes. -/
theorem closes_setLastCause {s t : State} {p : Port} {c : Cause} (h : (s.setLastCause p c).Closes t) : s.Closes t := fun q => by
  have hq := h q
  by_cases hqp : q = p
  · rw [hqp, State.setLastCause, s.updPort_self] at hq
    rw [hqp]
    exact ⟨hq.code, hq.penalty, hq.hold⟩
  · rw [State.setLastCause, s.updPort_other hqp] at hq
    exact hq

theorem closes_applyAction {s : State} {p : Port} (hm : (s.port p).mode = .auto) (hp : (s.port p).penalty ≤ 7)
    (c : LadderCause) (x : CauseParts) (a : Action) : s.Closes (s.applyAction p c x a) := by
  cases a with
  | ignore => exact closes_refl s
  | report => exact closes_report s p _
  | cut =>
    rw [State.applyAction]
    split
    · next h =>
      have entered : s.Closes (s.updPort p PortRec.toCut) := closes_updPort (.cut hm h)
      exact entered
    · exact closes_report s p _
  | shut =>
    rw [State.applyAction]
    split
    · have entered : s.Closes (s.updPort p fun _ => (s.port p).toShut s.profile.hb s.profile.hmax) :=
        closes_updPort (.shut hm hp)
      exact entered
    · exact closes_report s p _

theorem closes_applyCause {s : State} {p : Port} (hp : (s.port p).penalty ≤ 7) (c : LadderCause) (x : CauseParts) :
    s.Closes (s.applyCause p c x) := by
  unfold State.applyCause
  split
  · exact closes_refl s
  · exact closes_refl s
  · exact closes_setLastCause (closes_report _ p _)
  · next hm _ =>
    have named : (s.setLastCause p (.ladder c)).port p = { s.port p with lastCause := some (.ladder c) } :=
      s.updPort_self p _
    refine closes_setLastCause (closes_applyAction ?_ ?_ c x _)
    · rw [named]; exact hm
    · rw [named]; exact hp

/-- Settles O14: of the ways that CAUSE_TAKEN ends, CUT and SHUT alone write mode, state or penalty. -/
theorem causesNeverOpenAPort : Obligations.CausesNeverOpenAPort := by
  intro s t p q c hok h
  obtain ⟨hports, -⟩ := (portsOk_iff s).mp hok
  obtain ⟨-, -, hp⟩ := (hports p).1.bounded
  have taken : s.Closes t := by
    refine keeps_powered h (closes_refl s) (keeps_takeRequest _ _ (closes_refl s) fun rest k _ => ?_)
    split
    · exact closes_applyCause (s := { s with gateReqs := rest }) hp _ _
    · exact closes_refl s
  exact ⟨(taken q).code, (taken q).penalty, (taken q).hold⟩

/-! ### Manual changes (R135 to R140) -/

/-- A gate-changing command runs where the engine is RUNNING, no other port holds the gates, and its own checks pass. -/
theorem gateChecks_pass {s : State} {cp : CtlPort} (hr : s.running = true)
    (ho : s.holdOwner = none ∨ s.holdOwner = some cp) : firstFailure (gateChecks s cp false false false) = none := by
  simp [gateChecks, firstFailure, hr, heldByOther_free ho]

theorem pinnedForCp1_ofNat {s : State} {cp : CtlPort} {p : Port} (h : cp = .cp0 ∨ (s.port p).mode ≠ .pinned) :
    s.pinnedForCp1 cp (BitVec.ofNat 8 p.val) = false := by
  rw [pinnedForCp1_eq, portArg_ofNat]
  rcases h with rfl | h
  · rfl
  · rw [Option.any_some, decide_eq_false h, Bool.and_false]

theorem addAttempts_zero (s : State) (t : TapId) : s.addAttempts t 0 = s := by
  change { s with taps := s.taps.set t (s.taps.get t) } = s
  rw [PerTap.set_get_self]

set_option Elab.async false in
/-- A change that changes nothing makes no attempt. -/
theorem noteAttempts_self (s : State) : noteAttempts s s = s := by
  have none (t : TapId) : newAttempts s s t = 0 := by
    simp +contextual [newAttempts, State.servable]
  rw [noteAttempts, none, addAttempts_zero, none, addAttempts_zero]

/-- A port has taken a record, with the requests of LISTEN entry where it enters LISTEN (R125, R136). -/
def State.settled (s : State) (p : Port) (listens : Bool) (x : PortRec) : State :=
  { (if listens then enterListen s p s.ports[p] else s) with ports := s.ports.set p x }

theorem settled_port (s : State) (p : Port) (listens : Bool) (x : PortRec) : (s.settled p listens x).ports[p] = x :=
  (getElem_set_fin s.ports p p x).trans (if_pos rfl)

theorem updPort_settled (s : State) (p : Port) (listens : Bool) (x : PortRec) (f : PortRec → PortRec) :
    (s.settled p listens x).updPort p f = s.settled p listens (f x) := by
  have last : (s.ports.set p x).set p (f x) = s.ports.set p (f x) := Vector.set_set ..
  rw [updPort_eq, settled_port, State.settled, State.settled, last]

theorem settled_updPort (s : State) (p : Port) (f : PortRec → PortRec) (listens : Bool) (x : PortRec) :
    (s.updPort p f).settled p listens x = s.settled p listens x := by
  have last : (s.ports.set p (f s.ports[p])).set p x = s.ports.set p x := Vector.set_set ..
  cases listens with
  | true => exact congrArg (fun ports => { enterListen s p s.ports[p] with ports := ports }) last
  | false => exact congrArg (fun ports => { s with ports := ports }) last

theorem settled_self (s : State) (p : Port) : s.settled p false (s.port p) = s :=
  congrArg (fun ports => { s with ports := ports }) (Vector.set_getElem_self p.isLt)

theorem listen_settled (s : State) (p : Port) : s.listen p = s.settled p true (inListen s.ports[p]) := listen_eq s p

/-- The record that a port has which became AUTO (R136, R140). -/
def PortRec.madeAuto (r : PortRec) : PortRec :=
  if r.linkUp = true then { inListen r with mode := .auto, confirm := false } else { inDown r with mode := .auto }

theorem listenOrDown_eq (s : State) (p : Port) :
    s.listenOrDown p = s.settled p s.ports[p].linkUp s.ports[p].madeAuto := by
  have became : (s.updPort p fun r => { r with mode := .auto, confirm := false }).ports[p] =
      { s.ports[p] with mode := .auto, confirm := false } := s.updPort_self p _
  unfold State.listenOrDown
  dsimp only
  rw [listen_settled, became, settled_updPort, State.updPort_updPort, PortRec.madeAuto]
  cases s.ports[p].linkUp <;> rfl

theorem manual_to {before after : State} {p : Port} {x : PortRec} (a : IncAction) (hx : after.ports[p] = x)
    (h : before.ports[p].mode ≠ x.mode) : State.manual before after p a = after.record (manualRecord p x a) := by
  rw [State.manual, hx]
  exact if_neg fun hs => h hs.1

theorem manualHeld_eq (s : State) (p : Port) : s.manualHeld p = if (s.port p).mode = .held then s else
    (s.settled p false (s.port p).toHeld).record (manualRecord p (s.port p).toHeld .setHeld) :=
  ite_congr rfl (fun _ => rfl) fun h => manual_to _ (s.updPort_self p _) h

theorem manualPinned_eq (s : State) (p : Port) : s.manualPinned p = if (s.port p).mode = .pinned then s else
    (s.settled p false (s.port p).toPinned).record (manualRecord p (s.port p).toPinned .setPinned) :=
  ite_congr rfl (fun _ => rfl) fun h => manual_to _ (s.updPort_self p _) h

theorem madeAuto_mode (r : PortRec) : r.madeAuto.mode = .auto := by
  unfold PortRec.madeAuto
  split <;> rfl

theorem manualAuto_eq (s : State) (p : Port) : s.manualAuto p = if (s.port p).mode = .auto then s else
    (s.settled p (s.port p).linkUp (s.port p).madeAuto).record (manualRecord p (s.port p).madeAuto .setAuto) := by
  refine ite_congr rfl (fun _ => rfl) fun h => ?_
  rw [listenOrDown_eq]
  exact manual_to _ (settled_port ..) (by rwa [madeAuto_mode])

theorem toPinned_eq (r : PortRec) : r.toPinned = { r with
    mode := .pinned, state := if r.linkUp then .opened else .down, backlog := 0, listenProbe := none, hold := 0
    confirm := false, listenTimer := ⟨false, 0, false⟩, releaseTimer := ⟨false, 0, false⟩
    goodTimer := ⟨r.linkUp, 0, false⟩ } := by
  unfold PortRec.toPinned
  cases r.linkUp <;> rfl

set_option Elab.async false in
/-- SET_MODE HELD answers OK with the port made HELD (R138). -/
theorem exec_setModeHeld {s : State} {cp : CtlPort} {p : Port} (hl : Listening s cp) (hr : s.running = true)
    (ho : s.holdOwner = none ∨ s.holdOwner = some cp) (hp : cp = .cp0 ∨ (s.port p).mode ≠ .pinned) :
    exec (.setModeHeld cp (BitVec.ofNat 8 p.val)) s = .next (ok (s.manualHeld p) cp) := by
  change execSetModeHeld cp _ s = _
  rw [execSetModeHeld, pinnedForCp1_ofNat hp, portArg_ofNat]
  exact command_runs hl.1 hl.2 (gateChecks_pass hr ho) _

/-- SET_MODE PINNED from CP0 answers OK with the port made PINNED (R139). -/
theorem exec_setModePinned {s : State} {p : Port} (hl : Listening s .cp0) (hr : s.running = true)
    (ho : s.holdOwner = none ∨ s.holdOwner = some .cp0) :
    exec (.setModePinned .cp0 (BitVec.ofNat 8 p.val)) s = .next (ok (s.manualPinned p) .cp0) := by
  change execSetModePinned .cp0 _ s = _
  rw [execSetModePinned, portArg_ofNat]
  exact command_runs hl.1 hl.2 (gateChecks_pass hr ho) _

/-- SET_MODE AUTO answers OK with the port made AUTO and its attempts (R140). -/
theorem exec_setModeAuto {s : State} {cp : CtlPort} {p : Port} (hl : Listening s cp) (hr : s.running = true)
    (ho : s.holdOwner = none ∨ s.holdOwner = some cp) (hp : cp = .cp0 ∨ (s.port p).mode ≠ .pinned) :
    exec (.setModeAuto cp (BitVec.ofNat 8 p.val) 0) s = .next (ok (noteAttempts s (s.manualAuto p)) cp) := by
  change execSetModeAuto cp _ 0 s = _
  rw [execSetModeAuto, if_neg (by decide), pinnedForCp1_ofNat hp, portArg_ofNat]
  exact command_runs hl.1 hl.2 (gateChecks_pass hr ho) _

/-- Settles O17: each of the three commands by the mode that the port has. -/
theorem setModeTaken : Obligations.SetModeTaken := fun s cp p hl hr ho hp => by
  refine ⟨?_, fun h0 => ?_, ?_⟩
  · rw [exec_setModeHeld hl hr ho hp, manualHeld_eq]
    rfl
  · subst h0
    rw [exec_setModePinned hl hr ho, manualPinned_eq, toPinned_eq]
    rfl
  · rw [exec_setModeAuto hl hr ho hp, manualAuto_eq]
    by_cases hm : (s.port p).mode = .auto
    · rw [if_pos hm, if_pos hm, noteAttempts_self]
    · rw [if_neg hm, if_neg hm, PortRec.madeAuto]
      cases (s.port p).linkUp <;> rfl

/-! ### RELEASE and RELEASE_ALL (R136, R137) -/

/-- RELEASE puts the port into LISTEN. -/
def PortRec.relistens (r : PortRec) : Bool :=
  decide ((r.mode = .auto ∧ (r.state = .cut ∨ r.state = .shut)) ∨ (r.mode = .held ∧ r.linkUp = true))

/-- A port record after RELEASE, but for the forgive flag. -/
def PortRec.relinked (r : PortRec) : PortRec :=
  if r.mode = .auto ∧ (r.state = .cut ∨ r.state = .shut) then inListen r
  else if r.mode = .held ∧ r.linkUp = true then { inListen r with mode := .auto, confirm := false }
  else if r.mode = .held then { inDown r with mode := .auto }
  else r

/-- A port record after RELEASE with its forgive flag. -/
def PortRec.released (r : PortRec) (forgive : Bool) : PortRec :=
  if forgive then { r.relinked with penalty := 0 } else r.relinked

/-- RELEASE alters the mode, the state or the penalty. -/
def PortRec.alters (r x : PortRec) : Bool := decide (¬(x.mode = r.mode ∧ x.state = r.state ∧ x.penalty = r.penalty))

theorem manual_eq (before after : State) (p : Port) (a : IncAction) : State.manual before after p a =
    if before.ports[p].alters after.ports[p] then after.record (manualRecord p after.ports[p] a) else after := by
  simp only [State.manual, PortRec.alters, eq_comm (a := before.ports[p].mode), eq_comm (a := before.ports[p].state),
    eq_comm (a := before.ports[p].penalty), decide_eq_true_eq, ite_not]
  rfl

theorem if_decide {α : Type} (c : Prop) [Decidable c] (x y : α) : (if decide c = true then x else y) = if c then x else y := by
  by_cases h : c <;> simp [h]

theorem if_decide_not {α : Type} (c : Prop) [Decidable c] (x y : α) :
    (if decide (¬c) = true then x else y) = if c then y else x := by
  by_cases h : c <;> simp [h]

theorem PortRec.relisten_auto {r : PortRec} (hm : r.mode = .auto) :
    r.relistens = decide (r.state = .cut ∨ r.state = .shut)
      ∧ r.relinked = if r.state = .cut ∨ r.state = .shut then inListen r else r := by
  simp [PortRec.relistens, PortRec.relinked, hm]

theorem PortRec.relisten_held {r : PortRec} (hm : r.mode = .held) : r.relistens = r.linkUp ∧ r.relinked = r.madeAuto := by
  simp [PortRec.relistens, PortRec.relinked, PortRec.madeAuto, hm]

theorem PortRec.relisten_pinned {r : PortRec} (hm : r.mode = .pinned) : r.relistens = false ∧ r.relinked = r := by
  simp [PortRec.relistens, PortRec.relinked, hm]

/-- What RELEASE does to a port before its record: by its mode, its state and its link. -/
theorem releasePort_eq (s : State) (p : Port) :
    s.releasePort p = s.settled p s.ports[p].relistens s.ports[p].relinked := by
  unfold State.releasePort
  split
  · next hm =>
    rw [(PortRec.relisten_auto hm).1, (PortRec.relisten_auto hm).2]
    split
    · next h => rw [listen_settled, decide_eq_true h]
    · next h => rw [decide_eq_false h, settled_self]
  · next hm => rw [(PortRec.relisten_held hm).1, (PortRec.relisten_held hm).2, listenOrDown_eq]
  · next hm => rw [(PortRec.relisten_pinned hm).1, (PortRec.relisten_pinned hm).2, settled_self]

theorem forgiven_eq (r : PortRec) (forgive : Bool) :
    { r.relinked with penalty := if forgive then 0 else r.relinked.penalty } = r.released forgive := by
  cases forgive <;> rfl

/-- A state after RELEASE of one port but for its record. -/
abbrev State.releasing (s : State) (p : Port) (forgive : Bool) : State :=
  s.settled p s.ports[p].relistens (s.ports[p].released forgive)

theorem manualRelease_eq (s : State) (p : Port) (forgive : Bool) (a : IncAction) : s.manualRelease p forgive a =
    if s.ports[p].alters (s.ports[p].released forgive) then
      (s.releasing p forgive).record (manualRecord p (s.ports[p].released forgive) a)
    else s.releasing p forgive := by
  rw [State.manualRelease, releasePort_eq, updPort_settled, forgiven_eq, manual_eq, settled_port]

set_option Elab.async false in
/-- RELEASE answers OK with the port released and its attempts (R136). -/
theorem exec_release {s : State} {cp : CtlPort} (p : Port) (forgive : Bool) (hl : Listening s cp) (hr : s.running = true)
    (ho : s.holdOwner = none ∨ s.holdOwner = some cp) :
    exec (.release cp (BitVec.ofNat 8 p.val) (if forgive then 1 else 0)) s
      = .next (ok (noteAttempts s (s.manualRelease p forgive .release)) cp) := by
  change execRelease cp _ _ s = _
  rw [execRelease, portArg_ofNat, flagArg_ofBool]
  exact command_runs hl.1 hl.2 (gateChecks_pass hr ho) _

/-- Settles O18: RELEASE of one port, its record and its attempts. -/
theorem releaseTaken : Obligations.ReleaseTaken := fun s cp p forgive hl hr ho => by
  rw [exec_release p forgive hl hr ho, manualRelease_eq, PortRec.alters, if_decide_not, State.releasing, State.settled,
    PortRec.relistens, if_decide]
  rfl

/-- A state with another port table and other requests. -/
def State.moved (s : State) (ports : Vector PortRec 48) (urgent : List UrgentReq) (reqs : List GateReq) : State :=
  { s with ports := ports, urgent := urgent, gateReqs := reqs }

theorem moved_self (s : State) : s.moved s.ports s.urgent s.gateReqs = s := rfl

/-- The port table with some ports released. -/
def State.releasedPorts (s : State) (forgive : Bool) (ps : List Port) : Vector PortRec 48 :=
  Vector.ofFn fun p => if p ∈ ps then s.ports[p].released forgive else s.ports[p]

/-- Some ports released in one change, but for their records. -/
def State.releasedAll (s : State) (forgive : Bool) (ps : List Port) : State :=
  s.moved (s.releasedPorts forgive ps)
    (s.urgent ++ (ps.filter fun p => s.ports[p].relistens).map (⟨·, false⟩))
    (s.gateReqs.filter fun q => !(ps.any fun p => s.ports[p].relistens && named p .listenCompletion q))

/-- The MANUAL records of some ports released, of those that the release alters. -/
def State.recordReleases (s : State) (forgive : Bool) (ps : List Port) (t : State) : State :=
  (ps.filter fun p => s.ports[p].alters (s.ports[p].released forgive)).foldl
    (fun u p => u.record (manualRecord p (s.ports[p].released forgive) .releaseAll)) t

/-- The ring's records and a change of the port table with its requests go in either order. -/
theorem foldl_record_moved (f : Port → IncidentReq) (xs : List Port) (s : State) (ports : Vector PortRec 48)
    (urgent : List UrgentReq) (reqs : List GateReq) :
    xs.foldl (fun u p => u.record (f p)) (s.moved ports urgent reqs) =
      (xs.foldl (fun u p => u.record (f p)) s).moved ports urgent reqs := by
  induction xs generalizing s with
  | nil => rfl
  | cons x xs ih => exact ih (s.record (f x))

theorem recordReleases_moved (s : State) (forgive : Bool) (ps : List Port) (ports : Vector PortRec 48)
    (urgent : List UrgentReq) (reqs : List GateReq) : s.recordReleases forgive ps (s.moved ports urgent reqs) =
      (s.recordReleases forgive ps s).moved ports urgent reqs :=
  foldl_record_moved _ _ s ports urgent reqs

theorem moved_releasing (s : State) (ports : Vector PortRec 48) (urgent : List UrgentReq) (reqs : List GateReq) (p : Port)
    (forgive : Bool) {r : PortRec} (hr : ports[p] = r) : (s.moved ports urgent reqs).releasing p forgive =
      s.moved (ports.set p (r.released forgive)) (urgent ++ (if r.relistens then [⟨p, false⟩] else []))
        (reqs.filter fun q => !(r.relistens && named p .listenCompletion q)) := by
  have same : (s.moved ports urgent reqs).ports[p] = r := hr
  rw [State.releasing, same]
  cases r.relistens with
  | true => rfl
  | false =>
    have all : (reqs.filter fun q => !(false && named p .listenCompletion q)) = reqs := List.filter_true _
    have none : urgent ++ (if false = true then [⟨p, false⟩] else []) = urgent := List.append_nil _
    rw [all, none]
    rfl

theorem releasedPorts_concat (s : State) (forgive : Bool) (ps : List Port) (p : Port) :
    s.releasedPorts forgive (ps ++ [p]) = (s.releasedPorts forgive ps).set p ((s.port p).released forgive) := by
  refine vector_ext_fin fun q => ?_
  rw [getElem_set_fin, State.releasedPorts, State.releasedPorts, getElem_ofFn_fin, getElem_ofFn_fin]
  by_cases hq : q = p
  · subst hq
    rw [if_pos (List.mem_append_right _ (List.mem_singleton_self q)), if_pos rfl]
  · rw [if_neg hq]
    exact if_congr (List.mem_append.trans (or_iff_left fun h => hq (List.mem_singleton.mp h))) rfl rfl

theorem filter_any_concat {α β : Type} (xs : List α) (ps : List β) (p : β) (f : β → α → Bool) :
    (xs.filter fun q => !((ps ++ [p]).any fun p => f p q)) = (xs.filter fun q => !(ps.any fun p => f p q)).filter
      fun q => !(f p q) := by
  rw [List.filter_filter]
  refine List.filter_congr fun q _ => ?_
  rw [List.any_append, List.any_cons, List.any_nil, Bool.or_false, Bool.not_or, Bool.and_comm]

/-- One more port released in the same change. -/
theorem releasedAll_concat (s : State) (forgive : Bool) (ps : List Port) (p : Port) (hp : p ∉ ps) :
    (s.releasedAll forgive ps).releasing p forgive = s.releasedAll forgive (ps ++ [p]) := by
  have port : (s.releasedPorts forgive ps)[p] = s.ports[p] := (getElem_ofFn_fin _ p).trans (if_neg hp)
  have urgent (a : List UrgentReq) : a ++ ((ps ++ [p]).filter fun p => s.ports[p].relistens).map (⟨·, false⟩) =
      a ++ (ps.filter fun p => s.ports[p].relistens).map (⟨·, false⟩)
        ++ (if s.ports[p].relistens then [⟨p, false⟩] else []) := by
    generalize s.ports = ports
    rw [List.filter_append, List.map_append, List.append_assoc, List.filter_singleton]
    cases ports[p].relistens <;> rfl
  refine (moved_releasing _ _ _ _ _ _ port).trans ?_
  rw [State.releasedAll, urgent, releasedPorts_concat, filter_any_concat]

theorem releasedAll_nil (s : State) (forgive : Bool) : s.releasedAll forgive [] = s := by
  have ports : s.releasedPorts forgive [] = s.ports :=
    vector_ext_fin fun q => (getElem_ofFn_fin _ q).trans (if_neg List.not_mem_nil)
  have reqs : (s.gateReqs.filter fun _ => true) = s.gateReqs := List.filter_true _
  change s.moved (s.releasedPorts forgive []) (s.urgent ++ []) (s.gateReqs.filter fun _ => true) = s
  rw [ports, reqs, List.append_nil, moved_self]

/-- A port not yet released has its record still. -/
theorem recordReleases_port (s : State) (forgive : Bool) (ps : List Port) (p : Port) (hp : p ∉ ps) :
    (s.recordReleases forgive ps (s.releasedAll forgive ps)).ports[p] = s.ports[p] := by
  rw [State.releasedAll, recordReleases_moved]
  exact (getElem_ofFn_fin _ p).trans (if_neg hp)

/-- Releasing one more port is the next step of the one change. -/
theorem recordReleases_releasing (s : State) (forgive : Bool) (ps : List Port) (p : Port) (hp : p ∉ ps) :
    (s.recordReleases forgive ps (s.releasedAll forgive ps)).releasing p forgive =
      s.recordReleases forgive ps (s.releasedAll forgive (ps ++ [p])) := by
  have port : (s.releasedPorts forgive ps)[p] = s.ports[p] := (getElem_ofFn_fin _ p).trans (if_neg hp)
  rw [← releasedAll_concat s forgive ps p hp, State.releasedAll, recordReleases_moved, moved_releasing _ _ _ _ _ _ port,
    moved_releasing _ _ _ _ _ _ port, recordReleases_moved]

theorem manualReleases_eq (s : State) (forgive : Bool) (ps : List Port) (h : ps.Nodup) :
    ps.foldl (fun t p => t.manualRelease p forgive .releaseAll) s =
      s.recordReleases forgive ps (s.releasedAll forgive ps) := by
  induction ps using List.reverseRecOn with
  | nil => exact (releasedAll_nil s forgive).symm
  | append_singleton ps p ih =>
    obtain ⟨hps, hp⟩ := List.nodup_append'.mp h
    have new : p ∉ ps := fun hm => by simpa [hm] using hp.2
    rw [List.foldl_append, List.foldl_cons, List.foldl_nil, ih hps, manualRelease_eq,
      recordReleases_port s forgive ps p new, recordReleases_releasing s forgive ps p new,
      State.recordReleases, State.recordReleases, List.filter_append, List.foldl_append]
    cases halt : s.ports[p].alters (s.ports[p].released forgive) with
    | true => simp [halt, -Fin.getElem_fin]
    | false => simp [halt, -Fin.getElem_fin]

set_option Elab.async false in
/-- RELEASE_ALL answers OK with every port released and the attempts (R137). -/
theorem exec_releaseAll {s : State} {cp : CtlPort} (forgive : Bool) (hl : Listening s cp) (hr : s.running = true)
    (ho : s.holdOwner = none ∨ s.holdOwner = some cp) : exec (.releaseAll cp (if forgive then 1 else 0)) s
      = .next (ok (noteAttempts s (s.recordReleases forgive allPorts (s.releasedAll forgive allPorts))) cp) := by
  rw [← manualReleases_eq s forgive allPorts (List.nodup_finRange 48)]
  change execReleaseAll cp _ s = _
  rw [execReleaseAll, flagArg_ofBool]
  exact command_runs hl.1 hl.2 (gateChecks_pass hr ho) _

/-- Settles O19: RELEASE of all ports is one change of the port table, with the records after it. -/
theorem releaseAllTaken : Obligations.ReleaseAllTaken := fun s cp forgive hl hr ho => by
  have every : s.releasedPorts forgive allPorts = Vector.ofFn fun p => (s.port p).released forgive :=
    vector_ext_fin fun q => by rw [State.releasedPorts, getElem_ofFn_fin, getElem_ofFn_fin, if_pos (mem_allPorts q)]
  rw [exec_releaseAll forgive hl hr ho, State.releasedAll, every]
  rfl

end Sys2Proof.Machine

end

section
/-! PROOF. The port map and its reverse, eligibility and serving attempts, the arbiter's choice, and the port that LOOP is
raised against. -/

namespace Sys2Proof.Machine
open Sys2Proof.Spec

/-! ### The windows and the port map (R11, R12) -/

/-- A window's fabric range holds the fabric port, and gives it the guard port. -/
def Window.Sends (w : Window) (f : FabricPort) (g : Port) : Prop :=
  (w.first ≤ f.val ∧ f.val < w.first + w.count) ∧ g.val = w.guard + (f.val - w.first)

theorem Window.covers_iff (w : Window) (f : FabricPort) :
    w.covers f = true ↔ w.first ≤ f.val ∧ f.val < w.first + w.count := decide_eq_true_iff

theorem Window.map_eq_some {w : Window} (h : w.inRange) (f : FabricPort) (g : Port) :
    (w.covers f = true ∧ w.map f = some g) ↔ w.Sends f g := by
  obtain ⟨-, -, -, hguard⟩ := h
  rw [w.covers_iff, Window.Sends, and_congr_right_iff]
  intro hf
  rw [Window.map, dif_pos ⟨hf.1, hf.2, by omega⟩, Option.some.injEq, Fin.ext_iff]
  exact eq_comm

theorem Window.map_covered {w : Window} (h : w.inRange) {f : FabricPort} (hf : w.covers f = true) : w.map f ≠ none := by
  obtain ⟨-, -, -, hguard⟩ := h
  rw [w.covers_iff] at hf
  rw [Window.map, dif_pos ⟨hf.1, hf.2, by omega⟩]
  exact Option.some_ne_none _

theorem Window.unmap_eq_some {w : Window} (h : w.inRange) (f : FabricPort) (g : Port) :
    w.unmap g = some f ↔ w.Sends f g := by
  obtain ⟨-, -, hfirst, -⟩ := h
  unfold Window.unmap Window.Sends
  split
  · simp only [Option.some.injEq, Fin.ext_iff]
    omega
  · simp only [reduceCtorEq, false_iff]
    omega

/-- Two windows that share no guard port send no fabric ports to the same one. -/
theorem Window.Sends.apart {x y : Window} (h : x.overlaps y = false) {e f : FabricPort} {g : Port} (hx : x.Sends e g) :
    ¬y.Sends f g := by
  intro hy
  unfold Window.Sends at hx hy
  have := of_decide_eq_false h
  omega

theorem Profile.mapFabric_eq_some {pr : Profile} {t : TapId} (h0 : (pr.tapWindows t).1.inRange)
    (h1 : (pr.tapWindows t).2.inRange) (f : FabricPort) (g : Port) : pr.mapFabric t f = some g ↔
      (pr.tapWindows t).1.Sends f g ∨ ((pr.tapWindows t).1.covers f = false ∧ (pr.tapWindows t).2.Sends f g) := by
  rw [← Window.map_eq_some h0, ← Window.map_eq_some h1]
  unfold Profile.mapFabric
  dsimp only
  cases (pr.tapWindows t).1.covers f <;> cases (pr.tapWindows t).2.covers f <;> simp

set_option Elab.async false in
theorem Profile.mapFabric_eq_none {pr : Profile} {t : TapId} (h0 : (pr.tapWindows t).1.inRange)
    (h1 : (pr.tapWindows t).2.inRange) (f : FabricPort) : pr.mapFabric t f = none ↔
      (pr.tapWindows t).1.covers f = false ∧ (pr.tapWindows t).2.covers f = false := by
  have hc0 := Window.map_covered h0 (f := f)
  have hc1 := Window.map_covered h1 (f := f)
  unfold Profile.mapFabric
  dsimp only
  cases h : (pr.tapWindows t).1.covers f with
  | true => simpa using hc0 h
  | false =>
    cases h' : (pr.tapWindows t).2.covers f with
    | true => simpa using hc1 h'
    | false => simp

theorem Profile.fabricOf_eq_some {pr : Profile} {t : TapId} (h0 : (pr.tapWindows t).1.inRange)
    (h1 : (pr.tapWindows t).2.inRange) (happart : (pr.tapWindows t).1.overlaps (pr.tapWindows t).2 = false)
    (f : FabricPort) (g : Port) : pr.fabricOf t g = some f ↔ pr.mapFabric t f = some g := by
  rw [Profile.mapFabric_eq_some h0 h1]
  unfold Profile.fabricOf
  dsimp only
  cases hu : (pr.tapWindows t).1.unmap g with
  | some e =>
    have he := (Window.unmap_eq_some h0 e g).mp hu
    simp only [← Window.unmap_eq_some h0 f g, hu, he.apart happart, and_false, or_false]
  | none =>
    have hno : ¬(pr.tapWindows t).1.Sends f g := fun h => by
      rw [(Window.unmap_eq_some h0 f g).mpr h] at hu
      cases hu
    simp only [hno, false_or, ← Window.unmap_eq_some h1 f g]
    cases (pr.tapWindows t).2.unmap g with
    | none => simp
    | some e =>
      by_cases hef : e = f
      · subst hef
        simp
      · simp [hef]

/-- The windows of a tap are two of the four, in their order. -/
theorem Profile.tapWindows_eq (pr : Profile) (t : TapId) : ∃ i j : Fin 4, i ≠ j ∧ (∀ t', t' ≠ t → ∃ k l : Fin 4,
    pr.tapWindows t' = (pr.windows[k], pr.windows[l]) ∧ i ≠ k ∧ i ≠ l ∧ j ≠ k ∧ j ≠ l)
      ∧ pr.tapWindows t = (pr.windows[i], pr.windows[j]) := by
  cases t with
  | a => exact ⟨0, 1, by decide, fun t' ht => ⟨2, 3, by cases t' with
      | a => exact absurd rfl ht
      | b => exact ⟨rfl, by decide, by decide, by decide, by decide⟩⟩, rfl⟩
  | b => exact ⟨2, 3, by decide, fun t' ht => ⟨0, 1, by cases t' with
      | a => exact ⟨rfl, by decide, by decide, by decide, by decide⟩
      | b => exact absurd rfl ht⟩, rfl⟩

theorem Profile.ok.tapWindows {pr : Profile} (h : pr.ok) (t : TapId) : (pr.tapWindows t).1.inRange
    ∧ (pr.tapWindows t).2.inRange ∧ (pr.tapWindows t).1.overlaps (pr.tapWindows t).2 = false := by
  obtain ⟨hrange, happart, -⟩ := h
  obtain ⟨i, j, hij, -, he⟩ := pr.tapWindows_eq t
  rw [he]
  exact ⟨hrange i, hrange j, happart i j hij⟩

theorem Profile.ok.fabricOf {pr : Profile} (h : pr.ok) (t : TapId) (f : FabricPort) (g : Port) :
    pr.fabricOf t g = some f ↔ pr.mapFabric t f = some g := by
  obtain ⟨h0, h1, happart⟩ := h.tapWindows t
  exact Profile.fabricOf_eq_some h0 h1 happart f g

/-- No guard port has a fabric port of both taps. -/
theorem Profile.ok.oneTap {pr : Profile} (h : pr.ok) {t t' : TapId} (ht : t' ≠ t) {f e : FabricPort} {g : Port}
    (hf : pr.mapFabric t f = some g) : pr.mapFabric t' e ≠ some g := by
  obtain ⟨h0, h1, -⟩ := h.tapWindows t
  obtain ⟨k0, k1, -⟩ := h.tapWindows t'
  obtain ⟨i, j, -, hother, he⟩ := pr.tapWindows_eq t
  obtain ⟨k, l, hk, hik, hil, hjk, hjl⟩ := hother t' ht
  obtain ⟨-, happart, -⟩ := h
  rw [ne_eq, Profile.mapFabric_eq_some k0 k1, hk]
  rw [Profile.mapFabric_eq_some h0 h1, he] at hf
  rintro (h' | ⟨-, h'⟩)
  · rcases hf with hf | ⟨-, hf⟩
    · exact hf.apart (happart i k hik) h'
    · exact hf.apart (happart j k hjk) h'
  · rcases hf with hf | ⟨-, hf⟩
    · exact hf.apart (happart i l hil) h'
    · exact hf.apart (happart j l hjl) h'

set_option Elab.async false in
/-- The reverse mapping names the tap and the fabric port that map to the guard port (R12). -/
theorem Profile.ok.reverse {pr : Profile} (h : pr.ok) (t : TapId) (f : FabricPort) (g : Port) :
    pr.reverse g = some (t, f) ↔ pr.mapFabric t f = some g := by
  rw [← h.fabricOf]
  unfold Profile.reverse
  cases ha : pr.fabricOf .a g with
  | some e =>
    have he := (h.fabricOf .a e g).mp ha
    cases t with
    | a => simp [ha]
    | b =>
      have hb : pr.fabricOf .b g ≠ some f := fun hf => h.oneTap (by decide) he ((h.fabricOf .b f g).mp hf)
      simp [hb]
  | none => cases t with
    | a => simp [ha]
    | b => simp

/-- Settles O30, by the windows of a tap, of which no two share a guard port. -/
theorem portMapAndItsReverseAgree : Obligations.PortMapAndItsReverseAgree := by
  intro pr t f g h ws reaches lands
  obtain ⟨h0, h1, -⟩ := h.tapWindows t
  have hws : ws = pr.tapWindows t := by cases t <;> rfl
  have uncovered (w : Window) : w.covers f = false ↔ ¬reaches w := decide_eq_false_iff_not
  refine ⟨?_, ?_, h.reverse t f g⟩
  · rw [Profile.mapFabric_eq_some h0 h1, uncovered, hws]
    exact Iff.rfl
  · rw [Profile.mapFabric_eq_none h0 h1, uncovered, uncovered, hws]

/-! ### Eligibility, attempts and urgent requests (R60 to R63) -/

theorem PState.probed_iff (st : PState) : st.probed = true ↔ st ≠ .down ∧ st ≠ .shut := by
  cases st <;> decide

theorem noteAttempts_tap (x y : State) (t : TapId) : (noteAttempts x y).taps.get t =
    { y.taps.get t with attempts := (y.taps.get t).attempts + newAttempts x y t } := by
  rw [noteAttempts_eq]
  cases t <;> rfl

/-- Attempts are made where a backlog rose on a port that stays eligible, or where a port of some backlog became
eligible (R63). -/
theorem newAttempts_pos (x y : State) (t : TapId) : 0 < newAttempts x y t ↔ ∃ p : Port, y.eligibleOn t p = true
    ∧ (if x.eligibleOn t p = true then (x.port p).backlog < (y.port p).backlog else 1 ≤ (y.port p).backlog) := by
  have rose : 0 < (allPorts.filter fun p => x.eligibleOn t p && y.eligibleOn t p &&
      decide ((x.port p).backlog < (y.port p).backlog)).length ↔
      ∃ p : Port, x.eligibleOn t p = true ∧ y.eligibleOn t p = true ∧ (x.port p).backlog < (y.port p).backlog := by
    simp [List.length_pos_iff_exists_mem, mem_allPorts, and_assoc]
  have became : (allPorts.any fun p => y.servable t p && !x.eligibleOn t p) = true ↔
      ∃ p : Port, y.eligibleOn t p = true ∧ 1 ≤ (y.port p).backlog ∧ x.eligibleOn t p = false := by
    simp [mem_allPorts, State.servable, and_assoc]
  have some (c : Prop) [Decidable c] : 0 < (if c then 1 else 0) ↔ c := by
    by_cases h : c <;> simp [h]
  rw [newAttempts, Nat.add_pos_iff_pos_or_pos, rose, some, became]
  constructor
  · rintro (⟨p, hx, hy, h⟩ | ⟨p, hy, h, hx⟩)
    · exact ⟨p, hy, by rwa [if_pos hx]⟩
    · exact ⟨p, hy, by rwa [hx]⟩
  · rintro ⟨p, hy, h⟩
    split at h
    · next hx => exact .inl ⟨p, hx, hy, h⟩
    · next hx => exact .inr ⟨p, hy, h, Bool.eq_false_iff.mpr hx⟩

theorem PortRec.urged_eq (r : PortRec) (confirm : Bool) : r.urged confirm =
    if r.mode = .auto ∧ r.state ≠ .down ∧ r.state ≠ .shut then { r with backlog := 3, confirm := r.confirm || confirm }
    else if r.mode = .auto ∧ r.state = .down then { r with backlog := 3 }
    else r := by
  unfold PortRec.urged
  split
  · next hm => simp only [hm, true_and, ← PState.probed_iff]
  · next hm => simp [hm]
  · next hm => simp [hm]

/-- Settles O32. -/
theorem attemptsAndUrgentRequests : Obligations.AttemptsAndUrgentRequests := by
  refine ⟨⟨fun s t p => ?_, fun x y => ⟨?_, rfl, rfl, fun t => ?_⟩⟩, fun s p confirm hs hmem => ?_⟩
  · rw [eligibleOn_iff, PState.probed_iff, and_assoc]
  · rfl
  · rw [noteAttempts_tap]
    exact ⟨Nat.le_add_right _ _, (Nat.lt_add_right_iff_pos).trans (newAttempts_pos x y t)⟩
  · intro r x
    have hx : x = r.urged confirm := (PortRec.urged_eq r confirm).symm
    refine (powered_next hs.1 _).trans ?_
    rw [if_pos ⟨hs.2, hmem⟩, updPort_eq, hx]

/-! ### The arbiter and the service (R64, R67) -/

/-- A port that may be served on a tap has a fabric port of that tap. -/
theorem servable_fabric {s : State} {t : TapId} {p : Port} (h : s.servable t p = true) :
    ∃ f, s.profile.reverse p = some (t, f) ∧ s.profile.fabricOf t p = some f := by
  obtain ⟨he, -⟩ := (servable_iff s t p).mp h
  obtain ⟨-, -, -, -, ⟨f, hf⟩, -⟩ := (eligibleOn_iff s t p).mp he
  refine ⟨f, hf, ?_⟩
  unfold Profile.reverse at hf
  split at hf
  · next e ha =>
    obtain ⟨rfl, rfl⟩ := Prod.mk.inj (Option.some.inj hf)
    exact ha
  · obtain ⟨e, hb, he⟩ := Option.map_eq_some_iff.mp hf
    obtain ⟨rfl, rfl⟩ := Prod.mk.inj he
    exact hb

set_option Elab.async false in
/-- The service of a port, as one change (R67). -/
theorem serve_eq {s : State} {t : TapId} {p : Port} {f : FabricPort} (h : s.profile.fabricOf t p = some f) :
    s.serve t p = { s with
      ports := s.ports.set p ((s.port p).served s.nextSequence)
      taps := s.taps.set t { s.taps.get t with
        queue := (s.taps.get t).queue ++ [s.newProbe p f], lastServed := p }
      probes := s.probes ++ [s.newEntry p], seqCounter := s.nextSequence + 1, lastTapServed := t } := by
  rw [State.serve, h]
  rfl

theorem restartEngine_lastServed (s : State) (hold : Bool) (t : TapId) :
    ((s.restartEngine hold).taps.get t).lastServed = 47 := by
  have restarted : (s.restart.taps.get t).lastServed = 47 := by cases t <;> rfl
  unfold State.restartEngine
  split
  · exact restarted
  · rw [State.becomeRunning, noteAttempts_tap]
    exact restarted

/-- RESTART_ENGINE from CP0, the store not LOADING, carries its flag out (R181). -/
theorem exec_restartEngine {s : State} (hs : Listening s .cp0) (hl : s.store.condition ≠ .loading) {hold : Byte} {b : Bool}
    (hb : flagArg hold = some b) : exec (.restartEngine .cp0 hold) s = .next (ok (s.restartEngine b) .cp0) := by
  have hload : s.loading = false := decide_eq_false hl
  refine (command_runs hs.1 hs.2 ?_ _).trans ?_
  · rw [hb, hload]
    rfl
  · rw [hb]
    rfl

/-- Settles O39. -/
theorem arbiterServesTheHighestBacklog : Obligations.ArbiterServesTheHighestBacklog := by
  refine ⟨fun s t p => ⟨?_, ?_⟩, fun s u t p hs hpos htap hfinds h => ?_, rfl, rfl, fun s u hold h hs hhold hl => ?_⟩
  · simp only [arbiter_eq_some, servable_iff]
    exact Iff.rfl
  · simp only [arbiter_eq_none, ← Bool.not_eq_true, servable_iff]
  · obtain ⟨f, -, hf⟩ := servable_fabric (arbiter_servable (attemptFinds_serve hfinds).1)
    have h' := (powered_next hs.1 _).symm.trans h
    rw [if_pos hpos, htap, State.attempt, hfinds] at h'
    obtain rfl : s.serve t p = u := Host.Outcome.next.inj h'
    rw [serve_eq hf]
    refine ⟨by rw [PerTap.get_set_self], fun t' ht => ?_⟩
    rw [PerTap.get_set_of_ne _ ht]
  · have hflag : (flagArg hold).isNone = false := (flagArg_isNone hold).trans (decide_eq_false (Nat.not_le.mpr hhold))
    obtain ⟨b, hb⟩ := Option.isSome_iff_exists.mp (by rw [← Option.not_isNone, hflag]; rfl)
    obtain rfl := Host.Outcome.next.inj ((exec_restartEngine hs hl hb).symm.trans h)
    exact ⟨restartEngine_lastServed s b .a, restartEngine_lastServed s b .b⟩

/-! ### The port that LOOP is raised against (R90) -/

theorem higherPort_eq (p q : Port) : higherPort p q = max p q := by
  unfold higherPort
  split
  · next h => exact (max_eq_right (Fin.le_of_lt h)).symm
  · next h => exact (max_eq_left (Fin.not_lt.mp h)).symm

/-- The first age tells of the later time: an absent time is later than any present one (R90). -/
def Later (x y : Option Nat) : Prop := (x = none ∧ y ≠ none) ∨ ∃ m n, x = some m ∧ y = some n ∧ m < n

theorem newerPort_eq (s : State) (p q : Port) : (Later (s.linkAge p) (s.linkAge q) → s.newerPort p q = p)
    ∧ (Later (s.linkAge q) (s.linkAge p) → s.newerPort p q = q)
    ∧ (s.linkAge p = s.linkAge q → s.newerPort p q = max p q) := by
  unfold State.newerPort Later
  rw [higherPort_eq]
  cases s.linkAge p with
  | none => cases s.linkAge q with
    | none => simp
    | some n => simp
  | some m => cases s.linkAge q with
    | none => simp
    | some n =>
      simp only [reduceCtorEq, false_and, false_or, Option.some.injEq, exists_and_left, exists_eq_left']
      refine ⟨fun h => if_pos h, fun h => by rw [if_neg (by omega), if_pos h], fun h => ?_⟩
      rw [if_neg (by omega), if_neg (by omega)]

/-- The choice is the same from both sides. -/
theorem newerPort_comm (s : State) (p q : Port) : s.newerPort p q = s.newerPort q p := by
  unfold State.newerPort
  rw [higherPort_eq, higherPort_eq, max_comm q p]
  cases s.linkAge p with
  | none => cases s.linkAge q <;> rfl
  | some m => cases s.linkAge q with
    | none => rfl
    | some n =>
      dsimp only
      split
      · rw [if_neg (by omega)]
      · rfl

set_option Elab.async false in
theorem choosePort_comm (s : State) (p q : Port) : s.choosePort p q = s.choosePort q p := by
  unfold State.choosePort State.besidePinned
  rw [newerPort_comm s p q]
  by_cases hp : (s.port p).mode = .pinned
  · by_cases hq : (s.port q).mode = .pinned
    · rw [if_pos hp, if_pos hq, if_pos hq, if_pos hp]
    · rw [if_pos hp, if_neg hq, if_neg hq, if_pos hp]
  · by_cases hq : (s.port q).mode = .pinned
    · rw [if_neg hp, if_pos hq, if_pos hq, if_neg hp]
    · rw [if_neg hp, if_neg hq, if_neg hq, if_neg hp]

/-- Settles O46. -/
theorem loopChoosesTheNewestPort : Obligations.LoopChoosesTheNewestPort := by
  intro s p q _ pinned age later
  obtain ⟨hp, hq, heq⟩ := newerPort_eq s p q
  refine ⟨fun hpp hqp => ?_, fun hpp hqp => ?_, fun hpp hqp => ?_, fun hpp hqp => ?_, choosePort_comm s p q⟩
  · exact (if_pos hpp).trans (if_pos hqp)
  · exact (if_pos hpp).trans (if_neg hqp)
  · exact (if_neg hpp).trans (if_pos hqp)
  · have newer : s.choosePort p q = some (s.newerPort p q) := (if_neg hpp).trans (if_neg hqp)
    rw [newer]
    exact ⟨fun h => congrArg some (hp h), fun h => congrArg some (hq h), fun h => congrArg some (heq h)⟩

end Sys2Proof.Machine
end

section
/-! PROOF. The poll lines: what a write phase places and a read phase samples and sends, and what a completed transaction
delivers (R7, R144 to R147, R151, R185). -/

namespace Sys2Proof.Machine

open Sys2Proof.Spec

/-! ### The link bits of a write phase (R7, R144) -/

/-- A port record after its link bit. -/
def PortRec.linked (r : PortRec) (up : Bool) (now : MsTime) : PortRec :=
  { r with linkUp := up, lastLinkUp := if up = true ∧ r.linkUp = false then some now else r.lastLinkUp }

theorem PortRec.linked_same {r : PortRec} {up : Bool} (h : r.linkUp = up) (now : MsTime) : r.linked up now = r := by
  subst h
  have same : (if r.linkUp = true ∧ r.linkUp = false then some now else r.lastLinkUp) = r.lastLinkUp :=
    if_neg fun h => by simp [h.1] at h
  rw [PortRec.linked, same]

theorem PortRec.linked_changed {r : PortRec} {up : Bool} (h : r.linkUp ≠ up) (now : MsTime) : r.linked up now =
    { r with linkUp := up, lastLinkUp := if up then some now else r.lastLinkUp } := by
  cases up with
  | true => rw [PortRec.linked, if_pos ⟨rfl, Bool.eq_false_iff.mpr h⟩, if_pos rfl]
  | false => rfl

theorem moved_profile (s : State) (ports : Vector PortRec 48) (urgent : List UrgentReq) (reqs : List GateReq) :
    (s.moved ports urgent reqs).profile = s.profile := rfl

theorem moved_polls (s : State) (ports : Vector PortRec 48) (urgent : List UrgentReq) (reqs : List GateReq) :
    (s.moved ports urgent reqs).polls = s.polls := rfl

/-- The change that a port's link bit makes, if it makes one. -/
def linkChange (r : PortRec) (p : Port) (up : Bool) : Option GateReq :=
  if r.linkUp = up then none else some ⟨some p, if up then .linkUp else .linkDown, none⟩

/-- One link bit placed, as one change. -/
theorem placeLink_eq (s : State) (p : Port) (up : Bool) : s.placeLink p up =
    s.moved (s.ports.set p ((s.port p).linked up s.msTime)) s.urgent
      (s.gateReqs ++ if s.running then (linkChange (s.port p) p up).toList else []) := by
  unfold State.placeLink linkChange
  split
  · next h =>
    have same : s.ports.set p (s.port p) = s.ports := Vector.set_getElem_self p.isLt
    rw [PortRec.linked_same h, same, Option.toList_none, ite_self, List.append_nil, moved_self]
  · next h =>
    rw [PortRec.linked_changed h]
    dsimp only
    split
    · rfl
    · rw [List.append_nil]
      rfl

theorem placeLink_moved (s : State) (ports : Vector PortRec 48) (reqs : List GateReq) (p : Port) (up : Bool) :
    (s.moved ports s.urgent reqs).placeLink p up = s.moved (ports.set p (ports[p].linked up s.msTime)) s.urgent
      (reqs ++ if s.running then (linkChange ports[p] p up).toList else []) :=
  placeLink_eq (s.moved ports s.urgent reqs) p up

/-- A port record once the link bits of some fabric ports are placed. -/
def State.linkedPort (s : State) (l : TapId) (link : FabricPort → Bool) (fs : List FabricPort) (p : Port) : PortRec :=
  match s.profile.fabricOf l p with
  | none => s.ports[p]
  | some f => if f ∈ fs then s.ports[p].linked (link f) s.msTime else s.ports[p]

/-- The changes that the link bits of some fabric ports make. -/
def State.linkChanges (s : State) (l : TapId) (link : FabricPort → Bool) (fs : List FabricPort) : List GateReq :=
  fs.filterMap fun f => (s.profile.mapFabric l f).bind fun p => linkChange s.ports[p] p (link f)

/-- The state with the link bits of some fabric ports placed. -/
def State.linksPlaced (s : State) (l : TapId) (link : FabricPort → Bool) (fs : List FabricPort) : State :=
  s.moved (Vector.ofFn (s.linkedPort l link fs)) s.urgent (s.gateReqs ++ if s.running then s.linkChanges l link fs else [])

/-- The link bit of one fabric port placed. -/
def State.placeFor (l : TapId) (link : FabricPort → Bool) (s : State) (f : FabricPort) : State :=
  match s.profile.mapFabric l f with
  | none => s
  | some p => s.placeLink p (link f)

theorem linkedPort_nil (s : State) (l : TapId) (link : FabricPort → Bool) (p : Port) :
    s.linkedPort l link [] p = s.port p := by
  unfold State.linkedPort
  split
  · rfl
  · exact if_neg List.not_mem_nil

theorem linksPlaced_nil (s : State) (l : TapId) (link : FabricPort → Bool) : s.linksPlaced l link [] = s := by
  have ports : Vector.ofFn (s.linkedPort l link []) = s.ports :=
    vector_ext_fin fun p => (getElem_ofFn_fin _ p).trans (linkedPort_nil s l link p)
  rw [State.linksPlaced, ports, State.linkChanges, List.filterMap_nil, ite_self, List.append_nil, moved_self]

set_option Elab.async false in
/-- One more link bit is placed in the port that the map gives its fabric port, if there is one. -/
theorem linkedPort_concat {s : State} (h : s.profile.ok) (l : TapId) (link : FabricPort → Bool) (fs : List FabricPort)
    (f : FabricPort) (p : Port) : s.linkedPort l link (fs ++ [f]) p =
      if s.profile.mapFabric l f = some p then (s.port p).linked (link f) s.msTime else s.linkedPort l link fs p := by
  have gives := h.fabricOf l f p
  unfold State.linkedPort
  cases hp : s.profile.fabricOf l p with
  | none => exact (if_neg fun hm => by simpa [hp] using gives.mpr hm).symm
  | some e =>
    by_cases he : e = f
    · subst he
      rw [if_pos (gives.mp hp)]
      exact if_pos (List.mem_append_right _ (List.mem_singleton_self e))
    · rw [if_neg fun hm => he (Option.some.inj (hp.symm.trans (gives.mpr hm)))]
      exact if_congr (List.mem_append.trans (or_iff_left fun hm => he (List.mem_singleton.mp hm))) rfl rfl

theorem linkChanges_concat (s : State) (l : TapId) (link : FabricPort → Bool) (fs : List FabricPort) (f : FabricPort) :
    s.linkChanges l link (fs ++ [f]) = s.linkChanges l link fs
      ++ ((s.profile.mapFabric l f).bind fun p => linkChange (s.port p) p (link f)).toList := by
  rw [State.linkChanges, List.filterMap_append, State.linkChanges, List.filterMap_cons, List.filterMap_nil]
  cases (s.profile.mapFabric l f).bind fun p => linkChange (s.port p) p (link f) <;> rfl

/-- A link bit not yet placed finds its port's record still. -/
theorem linkedPort_kept {s : State} (h : s.profile.ok) {l : TapId} (link : FabricPort → Bool) {fs : List FabricPort}
    {f : FabricPort} (hf : f ∉ fs) {p : Port} (hp : s.profile.mapFabric l f = some p) :
    s.linkedPort l link fs p = s.port p := by
  rw [State.linkedPort, (h.fabricOf l f p).mpr hp]
  exact if_neg hf

theorem linksPlaced_polls (s : State) (l : TapId) (link : FabricPort → Bool) (fs : List FabricPort) :
    (noteAttempts s (s.linksPlaced l link fs)).polls = s.polls :=
  (noteAttempts_polls s (s.linksPlaced l link fs)).trans (moved_polls ..)

theorem linksPlaced_unmapped {s : State} (h : s.profile.ok) (l : TapId) (link : FabricPort → Bool) (fs : List FabricPort)
    {f : FabricPort} (hm : s.profile.mapFabric l f = none) : s.linksPlaced l link (fs ++ [f]) = s.linksPlaced l link fs := by
  have port (p : Port) : s.linkedPort l link (fs ++ [f]) p = s.linkedPort l link fs p := by
    rw [linkedPort_concat h, hm]
    rfl
  rw [State.linksPlaced, State.linksPlaced, funext port, linkChanges_concat, hm, Option.bind_none, Option.toList_none,
    List.append_nil]

theorem linksPlaced_mapped {s : State} (h : s.profile.ok) (l : TapId) (link : FabricPort → Bool) (fs : List FabricPort)
    {f : FabricPort} (hf : f ∉ fs) {p : Port} (hm : s.profile.mapFabric l f = some p) :
    (s.linksPlaced l link fs).placeLink p (link f) = s.linksPlaced l link (fs ++ [f]) := by
  have kept : (Vector.ofFn (s.linkedPort l link fs))[p] = s.port p :=
    (getElem_ofFn_fin _ p).trans (linkedPort_kept h link hf hm)
  have ports : Vector.ofFn (s.linkedPort l link (fs ++ [f])) =
      (Vector.ofFn (s.linkedPort l link fs)).set p ((s.port p).linked (link f) s.msTime) := by
    refine vector_ext_fin fun q => ?_
    rw [getElem_ofFn_fin, linkedPort_concat h, hm, getElem_set_fin, getElem_ofFn_fin]
    by_cases hq : q = p
    · rw [if_pos hq, if_pos (congrArg some hq.symm), hq]
    · rw [if_neg hq, if_neg fun hp => hq (Option.some.inj hp).symm]
  have reqs : s.gateReqs ++ (if s.running then s.linkChanges l link (fs ++ [f]) else []) =
      (s.gateReqs ++ if s.running then s.linkChanges l link fs else [])
        ++ if s.running then (linkChange (s.port p) p (link f)).toList else [] := by
    rw [linkChanges_concat, hm, Option.bind_some, List.append_assoc]
    cases s.running <;> rfl
  rw [State.linksPlaced, State.linksPlaced, placeLink_moved, kept, ports, reqs]

theorem foldl_placeFor {s : State} (h : s.profile.ok) (l : TapId) (link : FabricPort → Bool) (fs : List FabricPort)
    (hfs : fs.Nodup) : fs.foldl (State.placeFor l link) s = s.linksPlaced l link fs := by
  induction fs using List.reverseRecOn with
  | nil => exact (linksPlaced_nil s l link).symm
  | append_singleton fs f ih =>
    obtain ⟨hfs, -, hf⟩ := List.nodup_append.mp hfs
    rw [List.foldl_append, ih hfs, List.foldl_cons, List.foldl_nil]
    have same : (s.linksPlaced l link fs).profile = s.profile := moved_profile ..
    rw [State.placeFor, same]
    cases hm : s.profile.mapFabric l f with
    | none => exact (linksPlaced_unmapped h l link fs hm).symm
    | some p => exact linksPlaced_mapped h l link fs (fun hmem => hf f hmem f (List.mem_singleton_self f) rfl) hm

theorem writeLinks_bit (links : BitVec 32) (f : FabricPort) :
    (writeLinks links).getLsbD f.val = links.getLsbD (31 - f.val) := by
  have hf := f.isLt
  rw [writeLinks, BitVec.getLsbD_reverse, BitVec.getMsbD_eq_getLsbD]
  simp [hf]

set_option Elab.async false in
theorem placeLinks_eq {s : State} (h : s.profile.ok) (l : TapId) (links : BitVec 32) :
    s.placeLinks l (writeLinks links) = s.linksPlaced l (fun f => links.getLsbD (31 - f.val)) fabricPorts := by
  have bits : (fun f : FabricPort => (writeLinks links).getLsbD f.val) = fun f => links.getLsbD (31 - f.val) :=
    funext (writeLinks_bit links)
  rw [← bits]
  exact foldl_placeFor h l _ fabricPorts (List.nodup_finRange 32)

theorem linkCheck_eq (links : BitVec 32) : linkCheck (writeLinks links) =
    (fabricPorts.filter fun f => links.getLsbD (31 - f.val)).length % 16 := by
  rw [linkCheck, funext (writeLinks_bit links)]

/-! ### The codes of a read phase (R145, R185) -/

/-- The samples follow the map and the presented codes. -/
theorem samples_congr {s t : State} (h : t.profile = s.profile) (hp : ∀ p : Port, (t.port p).presented = (s.port p).presented)
    (l : TapId) : t.samples l = s.samples l := by
  unfold State.samples
  rw [h]
  refine List.map_congr_left fun f _ => ?_
  cases s.profile.mapFabric l f with
  | none => rfl
  | some p => exact congrArg (fun c => (some p, c)) (hp p)

theorem linkedPort_presented (s : State) (l : TapId) (link : FabricPort → Bool) (fs : List FabricPort) (p : Port) :
    (s.linkedPort l link fs p).presented = (s.port p).presented := by
  unfold State.linkedPort
  split
  · rfl
  · split <;> rfl

/-- The bits of a read phase hold the code of fabric port f at digit 31 - f to base 4. -/
theorem readBits_digit (samples : FabricPort → Option Port × GateCode) (f : FabricPort) :
    (readBits (fabricPorts.map samples)).toNat / 4 ^ (31 - f.val) % 4 = (samples f).2.rank := by
  let digits : List Nat := (fabricPorts.map samples).map fun x => x.2.rank
  have small : ∀ c ∈ digits, c < 4 := by
    intro c hc
    obtain ⟨x, -, rfl⟩ := List.mem_map.mp hc
    cases x.2 <;> decide
  have length : digits.length = 32 := by simp [digits, fabricPorts]
  have whole : (readBits (fabricPorts.map samples)).toNat = pairBits digits := by
    have := pairBits_lt digits small
    rw [length] at this
    exact (BitVec.toNat_ofNat ..).trans (Nat.mod_eq_of_lt this)
  have hf := f.isLt
  rw [whole, pairBits_digit digits small (31 - f.val) (by rw [length]; omega)]
  have place : 31 - (31 - f.val) = f.val := by omega
  simp [digits, fabricPorts, place]

/-- The state that a judged write phase leaves, as the bits say (R7, R144). -/
theorem judgeWrite_eq {s : State} (h : s.profile.ok) (l : TapId) (links : BitVec 32) (check : BitVec 4) :
    s.judgeWrite l links check =
      if check.toNat = (fabricPorts.filter fun f => links.getLsbD (31 - f.val)).length % 16 then
        noteAttempts s (s.linksPlaced l (fun f => links.getLsbD (31 - f.val)) fabricPorts)
      else s.census .pollErrors none 1 := by
  rw [State.judgeWrite, linkCheck_eq, placeLinks_eq h]

theorem judgeWrite_samples {s : State} (h : s.profile.ok) (l : TapId) (links : BitVec 32) (check : BitVec 4) :
    (s.judgeWrite l links check).samples l = s.samples l := by
  refine samples_congr (s.judgeWrite_profile l links check) (fun p => ?_) l
  rw [judgeWrite_eq h]
  split
  · have linked := getElem_ofFn_fin (s.linkedPort l (fun f => links.getLsbD (31 - f.val)) fabricPorts) p
    exact (congrArg PortRec.presented linked).trans (linkedPort_presented ..)
  · rfl

theorem updPoll_of {s t : State} (h : t.polls = s.polls) (l : TapId) (f : PollRec → PollRec) :
    t.updPoll l f = { t with polls := s.polls.set l (f (s.polls.get l)) } := by
  rw [State.updPoll, h]

/-- Settles O27. -/
theorem writePhaseEndPlacesLinksAndSamples : Obligations.WritePhaseEndPlacesLinksAndSamples := by
  intro s l links check hOn hok link good bit changed placed code samples read
  have run (hw : (s.polls.get l).phase = .write) : exec (.pollWriteEnd l links check) s =
      .next ((s.judgeWrite l links check).updPoll l fun x => { x with phase := .read (s.samples l) }) := by
    rw [exec_pollWriteEnd_of_write links check hOn hw, judgeWrite_samples hok]
  have sampled : s.samples l = samples := by
    refine List.map_congr_left fun f _ => ?_
    dsimp only [code]
    cases s.profile.mapFabric l f <;> rfl
  refine ⟨fun hw hbad => ?_, fun hw hgood => ?_, fun hw => ?_, ?_⟩
  · rw [run hw, judgeWrite_eq hok, if_neg hbad, sampled]
    rfl
  · have ports : s.linkedPort l link fabricPorts = placed := by
      funext p
      dsimp only [placed, bit, State.linkedPort]
      cases s.profile.fabricOf l p with
      | none => rfl
      | some f => exact if_pos (List.mem_finRange f)
    have linked : s.linksPlaced l link fabricPorts = { s with
        ports := Vector.ofFn placed
        gateReqs := s.gateReqs ++ (if s.running then fabricPorts.filterMap changed else []) } := by
      rw [State.linksPlaced, ports]
      rfl
    have polls : (noteAttempts s (s.linksPlaced l link fabricPorts)).polls = s.polls :=
      linksPlaced_polls s l link fabricPorts
    rw [run hw, judgeWrite_eq hok, if_pos hgood, sampled, updPoll_of polls, linked]
  · refine (powered_next hOn _).trans ?_
    split
    · next h => exact absurd h hw
    · rfl
    · rfl
  · refine ⟨_, rfl, fun f => (readBits_digit _ f).trans ?_⟩
    dsimp only
    cases code f <;> rfl

/-! ### What a completion delivers (R146, R147, R151) -/

/-- The code that a guard port has delivered once some samples are. -/
def State.deliveredBy (s : State) (samples : List (Option Port × GateCode)) (p : Port) : GateCode :=
  match samples.find? fun x => decide (x.1 = some p) with
  | some x => x.2
  | none => s.ports[p].delivered

/-- One sample delivered. -/
def State.deliverOne (s : State) (x : Option Port × GateCode) : State :=
  match x with
  | (some p, code) => s.updPort p fun r => { r with delivered := code }
  | (none, _) => s

set_option Elab.async false in
theorem deliver_cons (s : State) (x : Option Port × GateCode) (xs : List (Option Port × GateCode)) :
    s.deliver (x :: xs) = (s.deliverOne x).deliver xs := rfl

theorem deliverOne_port (s : State) (x : Option Port × GateCode) (p : Port) : (s.deliverOne x).ports[p] =
    if x.1 = some p then { s.ports[p] with delivered := x.2 } else s.ports[p] := by
  obtain ⟨_ | q, code⟩ := x
  · rfl
  · by_cases hq : q = p
    · subst hq
      exact (s.updPort_self q _).trans (if_pos rfl).symm
    · exact (s.updPort_other (Ne.symm hq) _).trans (if_neg fun h => hq (Option.some.inj h)).symm

theorem deliveredBy_cons (s : State) (x : Option Port × GateCode) (xs : List (Option Port × GateCode)) (p : Port) :
    s.deliveredBy (x :: xs) p = if x.1 = some p then x.2 else s.deliveredBy xs p := by
  unfold State.deliveredBy
  by_cases hx : x.1 = some p
  · rw [List.find?_cons, decide_eq_true hx, if_pos hx]
  · rw [List.find?_cons, decide_eq_false hx, if_neg hx]

theorem deliveredBy_absent (s : State) {xs : List (Option Port × GateCode)} {p : Port} (h : ∀ x ∈ xs, x.1 ≠ some p) :
    s.deliveredBy xs p = s.ports[p].delivered := by
  have absent : xs.find? (fun x => decide (x.1 = some p)) = none :=
    List.find?_eq_none.mpr fun x hx hp => h x hx (of_decide_eq_true hp)
  rw [State.deliveredBy, absent]

/-- Each guard port that was sampled, and it was sampled once, has its sampled code delivered. -/
theorem deliver_port (s : State) (samples : List (Option Port × GateCode)) (h : (samples.filterMap (·.1)).Nodup) (p : Port) :
    (s.deliver samples).ports[p] = { s.ports[p] with delivered := s.deliveredBy samples p } := by
  induction samples generalizing s with
  | nil => rfl
  | cons x xs ih =>
    have hxs : (xs.filterMap (·.1)).Nodup := by
      obtain ⟨_ | q, code⟩ := x
      · exact h
      · exact (List.nodup_cons.mp h).2
    rw [deliver_cons, ih _ hxs]
    by_cases hx : x.1 = some p
    · have hnew : ∀ y ∈ xs, y.1 ≠ some p := by
        intro y hy hp
        rw [List.filterMap_cons_some hx] at h
        exact (List.nodup_cons.mp h).1 (List.mem_filterMap.mpr ⟨y, hy, hp⟩)
      rw [deliveredBy_absent _ hnew, deliveredBy_cons, if_pos hx, deliverOne_port, if_pos hx]
    · rw [deliveredBy_cons, if_neg hx, State.deliveredBy, State.deliveredBy, deliverOne_port, if_neg hx]

theorem countClosings_eq (s : State) (closed : List Port) :
    s.countClosings closed = { s with counters := (s.countClosings closed).counters } := by
  unfold State.countClosings
  induction closed generalizing s with
  | nil => rfl
  | cons p ps ih => exact ih (s.census .gateClosings (some p) 1)

/-- The closings counted depend on the counters alone. -/
theorem countClosings_counters {s t : State} (h : s.counters = t.counters) (closed : List Port) :
    (s.countClosings closed).counters = (t.countClosings closed).counters := by
  unfold State.countClosings
  induction closed generalizing s t with
  | nil => exact h
  | cons p ps ih => exact ih (by rw [State.census_counters, State.census_counters, h])

set_option Elab.async false in
theorem closings_eq (s : State) (samples : List (Option Port × GateCode)) : s.closings samples =
    samples.filterMap fun x => x.1.bind fun p => if (s.port p).delivered.rank < x.2.rank then some p else none := by
  unfold State.closings
  refine List.filterMap_congr fun x _ => ?_
  obtain ⟨_ | q, code⟩ := x <;> rfl

/-- Settles O28. -/
theorem completionDeliversAndStepsTheEpoch : Obligations.CompletionDeliversAndStepsTheEpoch := by
  intro s l samples hOn hdistinct code closed
  refine ⟨fun hread => ⟨s.completed l samples, ?_, ?_, fun p => ?_, ?_, ?_, rfl⟩, fun hnone => ?_⟩
  · rw [pollComplete_eq l hOn, hread]
  · unfold State.completed
    rw [countClosings_eq, deliver_frame]
  · have kept : ((s.deliver samples).countClosings (s.closings samples)).ports = (s.deliver samples).ports :=
      frame_countClosings _ _ .ports (notIn rfl)
    change ((s.deliver samples).countClosings (s.closings samples)).ports[p] = _
    rw [kept]
    exact deliver_port s samples hdistinct p
  · rw [State.completed, closings_eq]
  · change ((s.deliver samples).countClosings (s.closings samples)).counters = _
    rw [closings_eq]
    exact countClosings_counters (frame_deliver s samples .counters (notIn rfl)) _
  · rw [pollComplete_eq l hOn]
    cases hphase : (s.polls.get l).phase with
    | read x => exact (hnone x hphase).elim
    | idle => rfl
    | write => rfl

end Sys2Proof.Machine
end

section
/-! PROOF. The time base: what a tick counts, drains and sweeps, and the expiries of the block's timers (R34, R42, R49 to R54,
R57, R58, R101, R107, R108, R118, R126, R167). -/

namespace Sys2Proof.Machine

open Sys2Proof.Spec

/-! ### A tick begins (R53, R118) -/

theorem PortRec.tick_eq (r : PortRec) (pr : Profile) : r.tick pr = { r with
    listenTimer := r.listenTimer.tick pr.listenLimit
    releaseTimer := r.releaseTimer.tick pr.tr
    goodTimer := r.goodTimer.tick (1000 * pr.tg) } := by
  rw [PortRec.tick, Nat.mul_comm]

theorem tickBegins_eq (s : State) : tickBegins s = s.beginTick := by
  cases h : s.running with
  | false => rw [beginTick_held h]; exact if_pos h
  | true =>
    have ticks : (fun i : Port => s.ports[i].tick s.profile) = _ := funext fun i => s.ports[i].tick_eq s.profile
    rw [beginTick_running h, State.tickTimers]
    refine (if_neg (by simp [h])).trans ?_
    change _ = { s.tickClock with
      classTimer := tickDown s.classTimer
      slotTimer := tickDown s.slotTimer
      decayTimer := tickDown s.decayTimer
      lifeLimit := some s.profile.lp
      ports := Vector.ofFn fun i : Port => s.ports[i].tick s.profile }
    rw [ticks]
    rfl

/-- What the drains and the sweep of a tick find in a state is what they find in another. -/
structure SameMeters (s t : State) : Prop where
  profile : t.profile = s.profile
  classLevel : t.classLevel = s.classLevel
  gateReqs : t.gateReqs = s.gateReqs
  table : t.table = s.table
  sweep : t.sweep = s.sweep
  interval : t.classTimer = none ↔ s.classTimer = none
  level (p : Port) : t.ports[p].level = s.ports[p].level
  calm (p : Port) : t.ports[p].calm = s.ports[p].calm
  candidate (p : Port) : t.ports[p].candidate = s.ports[p].candidate

theorem beginTick_port (s : State) (p : Port) :
    s.beginTick.ports[p] = if s.running then s.ports[p].tick s.profile else s.ports[p] := by
  cases h : s.running with
  | false => rw [beginTick_held h]; rfl
  | true => rw [beginTick_running h]; exact getElem_ofFn_fin _ p

theorem beginTick_interval (s : State) : s.beginTick.classTimer = none ↔ s.classTimer = none := by
  cases h : s.running with
  | false => rw [beginTick_held h]; exact Iff.rfl
  | true => rw [beginTick_running h]; exact Option.map_eq_none_iff

theorem beginTick_sameMeters (s : State) : SameMeters s s.beginTick where
  profile := s.beginTick_profile
  classLevel := s.beginTick_classLevel
  gateReqs := s.beginTick_gateReqs
  table := s.beginTick_table
  sweep := s.beginTick_sweep
  interval := beginTick_interval s
  level p := (beginTick_ports s p).2
  calm p := by rw [beginTick_port]; split <;> rfl
  candidate p := (beginTick_ports s p).1

/-! ### The drains of a tick (R34, R42, R49, R51) -/

/-- A port level after its drain. -/
def State.drainLevel (s : State) (p : Port) : Nat := s.ports[p].level - (s.profile.meterOf p).d

/-- A port record after its drain. -/
def State.drained (s : State) (p : Port) : PortRec := s.ports[p].meterTo (s.profile.meterOf p) (s.drainLevel p)

/-- The changes of the calm marks in a drain. -/
def State.drainCrossings (s : State) : List GateReq :=
  allPorts.flatMap fun p => calmChange p s.ports[p].calm (decide (s.drainLevel p < (s.profile.meterOf p).r))

/-- The class meter acts in the drain of its level. -/
def State.drainActs (s : State) : Bool := decide (s.profile.cc ≤ s.classLevel - s.profile.dc ∧ s.classTimer = none)

/-- What the class meter hands in the drain of its level, the ports being as given. -/
def State.drainAct (s : State) (ports : Vector PortRec 48) : List GateReq :=
  if s.drainActs then [classRequest { s with classLevel := s.classLevel - s.profile.dc, ports := ports }] else []

/-- What both drains of a tick hand. -/
def State.drainRequests (s : State) (order : MeterOrder) : List GateReq :=
  match order with
  | .portsFirst => s.drainCrossings ++ s.drainAct (Vector.ofFn s.drained)
  | .classFirst => s.drainAct s.ports ++ s.drainCrossings

/-- A state with other meters and other requests. -/
def State.metered (s : State) (timer : Option Nat) (ports : Vector PortRec 48) (level : Nat) (reqs : List GateReq) : State :=
  { s with classTimer := timer, ports := ports, classLevel := level, gateReqs := reqs }

/-- The class interval timer after the drain of the class level. -/
def State.drainTimer (s : State) : Option Nat := if s.drainActs then some s.profile.ti else s.classTimer

theorem classUpdate_eq (s : State) : s.classUpdate =
    if s.profile.cc ≤ s.classLevel ∧ s.classTimer = none then
      { s with gateReqs := s.gateReqs ++ [classRequest s], classTimer := some s.profile.ti }
    else s := by
  rw [State.classUpdate, classChoose_eq]

set_option Elab.async false in
theorem drainClass_eq (s : State) : s.drainClass =
    s.metered s.drainTimer s.ports (s.classLevel - s.profile.dc) (s.gateReqs ++ s.drainAct s.ports) := by
  rw [State.drainClass, classUpdate_eq]
  unfold State.drainAct State.drainTimer
  by_cases h : s.profile.cc ≤ s.classLevel - s.profile.dc ∧ s.classTimer = none
  · have acts : s.drainActs = true := decide_eq_true h
    rw [if_pos acts, if_pos acts]
    exact if_pos h
  · have acts : ¬s.drainActs = true := fun ha => h (of_decide_eq_true ha)
    rw [if_neg acts, if_neg acts, List.append_nil]
    exact if_neg h

theorem drainPorts_eq (s : State) : s.drainPorts =
    s.metered s.classTimer (Vector.ofFn s.drained) s.classLevel (s.gateReqs ++ s.drainCrossings) := rfl

theorem drainClass_metered (s : State) (ports : Vector PortRec 48) (reqs : List GateReq) :
    (s.metered s.classTimer ports s.classLevel reqs).drainClass =
      s.metered s.drainTimer ports (s.classLevel - s.profile.dc) (reqs ++ s.drainAct ports) := drainClass_eq _

theorem drainPorts_metered (s : State) (timer : Option Nat) (level : Nat) (reqs : List GateReq) :
    (s.metered timer s.ports level reqs).drainPorts =
      s.metered timer (Vector.ofFn s.drained) level (reqs ++ s.drainCrossings) := rfl

theorem drain_eq (s : State) (order : MeterOrder) : s.drain order =
    s.metered s.drainTimer (Vector.ofFn s.drained) (s.classLevel - s.profile.dc) (s.gateReqs ++ s.drainRequests order) := by
  cases order with
  | portsFirst =>
    exact (congrArg State.drainClass (drainPorts_eq s)).trans ((drainClass_metered s _ _).trans
      (congrArg _ (List.append_assoc ..)))
  | classFirst =>
    exact (congrArg State.drainPorts (drainClass_eq s)).trans ((drainPorts_metered s _ _ _).trans
      (congrArg _ (List.append_assoc ..)))

theorem sweepVisit_metered (s : State) (timer : Option Nat) (ports : Vector PortRec 48) (level : Nat) (reqs : List GateReq) :
    (s.metered timer ports level reqs).sweepVisit = { s with
      classTimer := timer, ports := ports, classLevel := level, gateReqs := reqs
      table := s.table.filter fun x => decide (x.1 / 4 ≠ s.sweep.val) || s.live x.2
      sweep := s.sweep + 1 } := rfl

theorem topContributor_congr {s t : State} (hc : ∀ p : Port, (t.port p).candidate = (s.port p).candidate)
    (hl : ∀ p : Port, (t.port p).level = (s.port p).level) : t.topContributor = s.topContributor := by
  rw [topContributor_eq, topContributor_eq, funext hc, funext hl]

set_option Elab.async false in
/-- The class request follows the class level and what the ports are to the class meter. -/
theorem classRequest_congr {s t : State} (h : t.classLevel = s.classLevel)
    (hc : ∀ p : Port, t.ports[p].candidate = s.ports[p].candidate)
    (hl : ∀ p : Port, t.ports[p].level = s.ports[p].level) : classRequest t = classRequest s := by
  unfold classRequest
  rw [topContributor_congr hc hl, h]
  cases s.topContributor with
  | none => rfl
  | some p => dsimp only; rw [hl]

/-- A change of the calm mark hands the one request that names it. -/
theorem calmChange_eq (p : Port) (old new : Bool) : calmChange p old new =
    (if old = new then none else some (⟨some p, if new then .downward else .rise, none⟩ : GateReq)).toList := by
  cases old <;> cases new <;> rfl

theorem flatMap_toList {α β : Type} (f : α → Option β) (xs : List α) :
    (xs.flatMap fun x => (f x).toList) = xs.filterMap f := by
  induction xs with
  | nil => rfl
  | cons x xs ih =>
    rw [List.flatMap_cons, ih, List.filterMap_cons]
    cases f x <;> rfl

theorem drainCrossings_eq (s : State) : s.drainCrossings = allPorts.filterMap fun p =>
    if s.ports[p].calm = decide (s.drainLevel p < (s.profile.meterOf p).r) then none
    else some ⟨some p, if decide (s.drainLevel p < (s.profile.meterOf p).r) then .downward else .rise, none⟩ := by
  rw [State.drainCrossings, ← flatMap_toList]
  simp only [calmChange_eq]

/-- The state a tick leaves before the drains: begun now, or by the expiry that came first (log entry 10). -/
def State.ticked (s : State) : State := if s.tickBegun then { s with tickBegun := false } else s.beginTick

theorem ticked_sameMeters (s : State) : SameMeters s s.ticked := by
  unfold State.ticked
  split
  · exact ⟨rfl, rfl, rfl, rfl, rfl, Iff.rfl, fun _ => rfl, fun _ => rfl, fun _ => rfl⟩
  · exact beginTick_sameMeters s

/-- Settles O37. -/
theorem msTickCountsDrainsAndSweeps : Obligations.MsTickCountsDrainsAndSweeps := by
  intro s order hOn b level calm drained crossings class' acts judged act
  have ticked : s.ticked = b := by rw [State.ticked, ← tickBegins_eq]
  obtain ⟨hprofile, hclass, hreqs, htable, hsweep, htimer, hlevel, hcalm, hcand⟩ := ticked ▸ ticked_sameMeters s
  have run : exec (.msTick order) s = .next (if s.running then (b.drain order).sweepVisit else b) := by
    rw [← ticked]
    exact powered_next hOn _
  have hdrained : b.drained = drained := funext fun p => by
    rw [State.drained, State.drainLevel, hlevel, hprofile]
    rfl
  have hcrossings : b.drainCrossings = crossings := by
    rw [drainCrossings_eq]
    refine List.filterMap_congr fun p _ => ?_
    rw [State.drainLevel, hlevel, hprofile, hcalm]
  have hacts : b.drainActs = acts := by
    refine decide_eq_decide.mpr (and_congr ?_ htimer)
    rw [hprofile, hclass]
  have hact (ports : Vector PortRec 48) (hports : judged.ports = ports ∨ judged.ports = s.ports ∧ ports = b.ports) :
      b.drainAct ports = act := by
    have request : classRequest { b with classLevel := b.classLevel - b.profile.dc, ports := ports } = classRequest judged := by
      obtain rfl | ⟨hs, rfl⟩ := hports
      · exact classRequest_congr (by rw [hclass, hprofile]) (fun _ => rfl) fun _ => rfl
      · refine classRequest_congr (by rw [hclass, hprofile]) (fun p => ?_) fun p => ?_
        · exact (hcand p).trans (by rw [hs])
        · exact (hlevel p).trans (by rw [hs])
    rw [State.drainAct, hacts, request]
  have swept : b.table.filter (fun x => decide (x.1 / 4 ≠ b.sweep.val) || b.live x.2) = s.table.filter fun x =>
      decide (x.1 / 4 ≠ s.sweep.val) || decide ((b.msTime - x.2.firstTime).toNat < s.profile.we) := by
    rw [htable, hsweep, ← hprofile]
    rfl
  have goal (reqs : List GateReq) (h : b.drainRequests order = reqs) :
      exec (.msTick order) s = .next (if s.running = false then b else { b with
        classTimer := if acts then some s.profile.ti else b.classTimer
        ports := Vector.ofFn drained
        classLevel := class'
        gateReqs := s.gateReqs ++ reqs
        table := s.table.filter fun x =>
          decide (x.1 / 4 ≠ s.sweep.val) || decide ((b.msTime - x.2.firstTime).toNat < s.profile.we)
        sweep := s.sweep + 1 }) := by
    rw [run, drain_eq, sweepVisit_metered, swept, hdrained, State.drainTimer, hacts, h, hclass, hreqs, hprofile, hsweep]
    cases hr : s.running with
    | false => rw [if_neg Bool.false_ne_true, if_pos rfl]
    | true =>
      rw [if_pos rfl, if_neg Bool.true_eq_false.mp]
  cases order with
  | portsFirst => exact goal _ (congrArg₂ _ hcrossings (hact _ (.inl (congrArg Vector.ofFn hdrained.symm))))
  | classFirst => exact goal _ (congrArg₂ _ (hact _ (.inr ⟨rfl, rfl⟩)) hcrossings)

/-! ### The expiries of the block's timers -/

/-- A class interval expiry on its moment. -/
theorem classExpiry_due {s : State} (hr : s.running = true) (hc : s.classTimer = some 0) : s.classExpiry =
    if s.profile.cc ≤ s.classLevel then
      { s with gateReqs := s.gateReqs ++ [classRequest s], classTimer := some s.profile.ti }
    else { s with classTimer := none } := by
  have due : (s.running && decide (s.classTimer = some 0)) = true := by rw [hr, hc]; rfl
  rw [State.classExpiry, if_pos due, classChoose_eq]

set_option Elab.async false in
theorem classExpiry_early {s : State} (h : ¬(s.running = true ∧ s.classTimer = some 0)) : s.classExpiry = s := by
  refine if_neg fun due => h ?_
  simpa using due

/-- A tick begun for the class interval expiry that it brings (R53, log entry 10). -/
def State.begunEarly (s : State) : State := { s.beginTick with tickBegun := true }

theorem begunEarly_timer {s : State} (hr : s.running = true) (hc : s.classTimer = some 1) :
    s.begunEarly.classTimer = some 0 := by
  unfold State.begunEarly
  rw [beginTick_running hr]
  exact congrArg tickDown hc

theorem begunEarly_request (s : State) : classRequest s.begunEarly = classRequest s :=
  classRequest_congr s.beginTick_classLevel (fun p => (beginTick_ports s p).1) fun p => (beginTick_ports s p).2

theorem classExpiry_begunEarly {s : State} (hr : s.running = true) (hc : s.classTimer = some 1) :
    s.begunEarly.classExpiry =
      if s.profile.cc ≤ s.classLevel then
        { s.begunEarly with gateReqs := s.gateReqs ++ [classRequest s], classTimer := some s.profile.ti }
      else { s.begunEarly with classTimer := none } := by
  have running : s.begunEarly.running = true := s.beginTick_running.trans hr
  have profile : s.begunEarly.profile = s.profile := s.beginTick_profile
  have level : s.begunEarly.classLevel = s.classLevel := s.beginTick_classLevel
  have reqs : s.begunEarly.gateReqs = s.gateReqs := s.beginTick_gateReqs
  have interval : s.begunEarly.profile.ti = s.profile.ti := congrArg Profile.ti profile
  rw [classExpiry_due running (begunEarly_timer hr hc), begunEarly_request, interval]
  exact if_congr (by rw [profile, level]) (by rw [reqs]) rfl

theorem PortRec.accrues_iff (r : PortRec) : r.accrues = true ↔ r.mode = .auto ∧ r.state ≠ .down ∧ r.state ≠ .shut := by
  rw [PortRec.accrues, Bool.and_eq_true, decide_eq_true_eq, PState.probed_iff]

theorem accrue_eq (s : State) (slot : Fin 16) : s.accrue slot = { s with ports := Vector.ofFn fun p : Port =>
    if s.ports[p].mode = .auto ∧ s.ports[p].state ≠ .down ∧ s.ports[p].state ≠ .shut ∧ (s.profile.portBytes[p]).slot = slot then
      { s.ports[p] with backlog := min (s.ports[p].backlog + 1) 3 }
    else s.ports[p] } := by
  unfold State.accrue
  congr 2
  funext p
  refine if_congr ?_ rfl rfl
  rw [Bool.and_eq_true, PortRec.accrues_iff, decide_eq_true_eq, and_assoc, and_assoc]

set_option Elab.async false in
theorem map_filter_eq_filterMap {α β : Type} (may : α → Prop) [DecidablePred may] (f : α → β) (xs : List α) :
    (xs.filter fun x => decide (may x)).map f = xs.filterMap fun x => if may x then some (f x) else none := by
  induction xs with
  | nil => rfl
  | cons x xs ih =>
    by_cases h : may x
    · rw [List.filter_cons, decide_eq_true h, if_pos rfl, List.map_cons, ih, List.filterMap_cons, if_pos h]
    · rw [List.filter_cons, decide_eq_false h, if_neg Bool.false_ne_true, ih, List.filterMap_cons, if_neg h]

/-- Settles O38. -/
theorem timersOfTheBlockExpire : Obligations.TimersOfTheBlockExpire := by
  intro s order hOn
  refine ⟨?_, ?_, ?_, ?_⟩
  · intro holds phase
    refine (powered_next hOn _).trans ?_
    cases s.tenthDue <;> rfl
  · intro accrued
    refine (powered_next hOn _).trans ?_
    rw [accrue_eq]
  · intro expired
    refine (powered_next hOn _).trans ?_
    cases order with
    | drainFirst =>
      dsimp only
      by_cases h : s.running = true ∧ s.classTimer = some 0
      · rw [if_pos h, classExpiry_due h.1 h.2]
      · rw [if_neg h, classExpiry_early h]
    | expiryFirst =>
      dsimp only
      rw [tickBegins_eq]
      by_cases h : s.running = true ∧ s.tickBegun = false ∧ s.classTimer = some 1
      · obtain ⟨hr, hb, hc⟩ := h
        have due : (s.running && !s.tickBegun && decide (s.classTimer = some 1)) = true := by rw [hr, hb, hc]; rfl
        rw [if_pos due, if_pos ⟨hr, hb, hc⟩]
        exact congrArg Host.Outcome.next (classExpiry_begunEarly hr hc)
      · rw [if_neg h, if_neg fun due => h (by simpa [and_assoc] using due)]
  · refine (powered_next hOn _).trans ?_
    rw [map_filter_eq_filterMap]

end Sys2Proof.Machine
end

section
/-! PROOF. The probe scheduler: serving attempts, the transmitters and the retirement of list entries (R28, R31, R63, R65 to
R69, R73 to R76). -/

namespace Sys2Proof.Machine

open Sys2Proof.Spec

/-! ### Serving attempts (R63, R65 to R69) -/

/-- A tap has a port to serve and a place in its queue. -/
def State.free (s : State) (t : TapId) : Prop := s.arbiter t ≠ none ∧ (s.taps.get t).queue.length < Config.queuePlaces

theorem attemptFinds_nothing {s : State} {t : TapId} (h : ¬s.free t) : s.attemptFinds t = .nothing := by
  unfold State.attemptFinds
  cases ha : s.arbiter t with
  | none => rfl
  | some p => exact if_pos (Nat.le_of_not_lt fun hq => h ⟨by simp [ha], hq⟩)

theorem attemptFinds_free {s : State} {t : TapId} (h : s.free t) {p : Port} (hp : s.arbiter t = some p) :
    s.attemptFinds t = if s.probes.length < Config.listEntries then .serve p else .defer p := by
  rw [State.attemptFinds, hp]
  exact if_neg (Nat.not_le.mpr h.2)

/-- An attempt serves exactly where its tap is free and the list has a place. -/
theorem serves_iff (s : State) (t : TapId) :
    (∃ p, s.attemptFinds t = .serve p) ↔ s.free t ∧ s.probes.length < Config.listEntries := by
  constructor
  · rintro ⟨p, h⟩
    obtain ⟨ha, hq, hl⟩ := attemptFinds_serve h
    exact ⟨⟨by simp [ha], hq⟩, hl⟩
  · rintro ⟨hf, hl⟩
    obtain ⟨p, hp⟩ := Option.ne_none_iff_exists'.mp hf.1
    exact ⟨p, (attemptFinds_free hf hp).trans (if_pos hl)⟩

/-- Both attempts serve. -/
def bothServe : AttemptFind → AttemptFind → Bool
  | .serve _, .serve _ => true
  | _, _ => false

theorem bothServe_iff (x y : AttemptFind) : bothServe x y = true ↔ (∃ p, x = .serve p) ∧ ∃ p, y = .serve p := by
  cases x <;> cases y <;> simp [bothServe]

theorem contested_eq (s : State) : s.contested =
    (decide (s.probes.length + 1 = Config.listEntries ∧ 0 < s.taps.a.attempts ∧ 0 < s.taps.b.attempts)
      && bothServe (s.attemptFinds .a) (s.attemptFinds .b)) := by
  unfold State.contested bothServe
  congr 1

theorem contested_iff (s : State) : s.contested = true ↔
    s.probes.length = 63 ∧ 0 < s.taps.a.attempts ∧ 0 < s.taps.b.attempts ∧ s.free .a ∧ s.free .b := by
  rw [contested_eq, Bool.and_eq_true, decide_eq_true_eq, bothServe_iff, serves_iff, serves_iff]
  constructor
  · rintro ⟨⟨hl, ha, hb⟩, ⟨fa, -⟩, ⟨fb, -⟩⟩
    exact ⟨Nat.succ.inj hl, ha, hb, fa, fb⟩
  · rintro ⟨hl, ha, hb, fa, fb⟩
    have room : s.probes.length < Config.listEntries := by rw [hl]; decide
    exact ⟨⟨congrArg Nat.succ hl, ha, hb⟩, ⟨fa, room⟩, ⟨fb, room⟩⟩

theorem attempt_nothing {s : State} {t : TapId} (h : ¬s.free t) :
    s.attempt t = s.updTap t fun x => { x with attempts := x.attempts - 1 } := by
  rw [State.attempt, attemptFinds_nothing h]

set_option Elab.async false in
theorem attempt_full {s : State} {t : TapId} (h : s.free t) (hfull : s.probes.length = 64) {p : Port}
    (hp : s.arbiter t = some p) : s.attempt t =
      { (s.updTap t fun x => { x with attempts := x.attempts - 1 }).census .probesDeferred (some p) 1 with
        firstDeferred := if s.firstDeferred = none then some p else s.firstDeferred } := by
  have full : ¬s.probes.length < Config.listEntries := by rw [hfull]; decide
  rw [State.attempt, attemptFinds_free h hp, if_neg full]

theorem attempt_serves {s : State} {t : TapId} (h : s.free t) (hroom : s.probes.length < 64) {p : Port}
    (hp : s.arbiter t = some p) : s.attempt t = s.serve t p := by
  have room : s.probes.length < Config.listEntries := hroom
  rw [State.attempt, attemptFinds_free h hp, if_pos room]

/-- The first probe of a port in LISTEN is its listen probe (R67). -/
theorem PortRec.purpose_listen (r : PortRec) : r.purpose = .listen ↔ r.state = .listen ∧ r.listenProbe = none := by
  unfold PortRec.purpose
  by_cases h : r.state = .listen ∧ r.listenProbe = none
  · simp [h]
  · rw [if_neg h]
    cases r.confirm <;> simp [h]

theorem PortRec.purpose_eq (r : PortRec) : r.purpose =
    if decide (r.state = .listen ∧ r.listenProbe = none) then .listen else if r.confirm then .confirm else .routine := by
  unfold PortRec.purpose
  simp only [decide_eq_true_eq]

theorem PortRec.served_eq (r : PortRec) (n : Word16) : r.served n = { r with
    backlog := 0, confirm := false
    listenProbe := if decide (r.state = .listen ∧ r.listenProbe = none) then some n else r.listenProbe } := by
  unfold PortRec.served
  simp only [decide_eq_true_eq, PortRec.purpose_listen]

theorem nextSequence_spec {s : State} (h : s.probes.length < 65536) : ∃ skipped,
    s.nextSequence = s.seqCounter + BitVec.ofNat 16 skipped
      ∧ (∀ j < skipped, s.seqCounter + BitVec.ofNat 16 j ∈ s.probes.map (·.sequence))
      ∧ s.nextSequence ∉ s.probes.map (·.sequence) := by
  have := freshSequence_spec (used := s.probes.map (·.sequence)) (by rwa [List.length_map]) s.seqCounter
  rwa [List.length_map] at this

/-- Settles O40. -/
theorem servingAttemptsServeDeferOrFindNothing : Obligations.ServingAttemptsServeDeferOrFindNothing := by
  intro s t hOn hlist free contest spent attempt
  have made (k : TapId) : attempt k (s.attempt k) := by
    refine ⟨fun hf => attempt_nothing hf, fun hf hfull p hp => attempt_full hf hfull hp, fun hf hroom p hp => ?_⟩
    obtain ⟨f, hrev, hfab⟩ := servable_fabric (arbiter_servable hp)
    obtain ⟨skipped, hn, hskip, hfresh⟩ := nextSequence_spec (s := s) (Nat.lt_trans hroom (by decide))
    refine ⟨f, s.nextSequence, skipped, hrev, hn, hfresh, hskip, ?_⟩
    rw [attempt_serves hf hroom hp, serve_eq hfab, PortRec.served_eq, State.newEntry, PortRec.purpose_eq]
    rfl
  refine ⟨fun hnone => ?_, fun hpos => ⟨s.attempt (s.attemptTap t), ?_, fun hc => ?_, fun hc hl => ?_, fun hc hl => ?_⟩⟩
  · refine (powered_next hOn _).trans ?_
    rw [if_neg (by omega)]
  · refine (powered_next hOn _).trans ?_
    rw [if_pos hpos]
  · have tap : s.attemptTap t = t := if_neg fun h => hc ((contested_iff s).mp h)
    rw [tap]
    exact made t
  · have tap : s.attemptTap t = otherTap s.lastTapServed := if_pos ((contested_iff s).mpr hc)
    rw [tap, hl]
    exact made .b
  · have tap : s.attemptTap t = otherTap s.lastTapServed := if_pos ((contested_iff s).mpr hc)
    rw [tap, hl]
    exact made .a

/-! ### The transmitters (R28, R31, R74) -/

/-- Settles O41. -/
theorem transmittersSendTheirQueueInOrder : Obligations.TransmittersSendTheirQueueInOrder := by
  intro s t hOn x
  refine ⟨powered_next hOn _, fun hx => ?_, fun q hx => ?_, fun q rest hx hq => ?_⟩
  · refine (powered_next hOn _).trans ?_
    rw [hx]
  · refine (powered_next hOn _).trans ?_
    rw [hx]
    dsimp only
    unfold State.orphanDeparted
    cases q.entryGone <;> rfl
  · intro left
    refine (powered_next hOn _).trans ?_
    rw [hx, hq]
    dsimp only
    unfold State.departed
    cases q.entryGone <;> rfl

/-! ### Retirement by life (R73 to R76) -/

/-- A state with more serving attempts pending. -/
def State.gain (s : State) (m n : Nat) : State := { s with taps :=
  ⟨{ s.taps.a with attempts := s.taps.a.attempts + m }, { s.taps.b with attempts := s.taps.b.attempts + n }⟩ }

theorem noteAttempts_gain (x y : State) : noteAttempts x y = y.gain (newAttempts x y .a) (newAttempts x y .b) := rfl

set_option Elab.async false in
theorem entryFreed_gain (s : State) : s.entryFreed = s.gain 1 1 := rfl

theorem gain_gain (s : State) (m n m' n' : Nat) : (s.gain m n).gain m' n' = s.gain (m + m') (n + n') := by
  unfold State.gain
  rw [Nat.add_assoc, Nat.add_assoc]

/-- An entry freed after a change gains each tap an attempt, and those that the change makes. -/
theorem freed_gain (x y : State) : ∃ m n, 0 < m ∧ 0 < n ∧ (noteAttempts x y).entryFreed = y.gain m n :=
  ⟨newAttempts x y .a + 1, newAttempts x y .b + 1, Nat.succ_pos _, Nat.succ_pos _,
    gain_gain y (newAttempts x y .a) (newAttempts x y .b) 1 1⟩

theorem gain_none (s : State) : s.gain 0 0 = s := rfl

theorem lifeOver_iff (s : State) (e : ProbeEntry) :
    s.lifeOver e = true ↔ ∃ lp, s.lifeLimit = some lp ∧ lp ≤ (s.msTime - e.emitted).toNat := by
  unfold State.lifeOver
  cases s.lifeLimit with
  | none => simp
  | some lp => rw [decide_eq_true_eq]; simp [State.age]

/-- What an unsent retirement leaves: the port probed again if the probe was its listen probe, and attempts (R75). -/
theorem unsent_gain (s : State) (e : ProbeEntry) : ∃ m n, 0 < m ∧ 0 < n ∧
    s.unsent e = (if s.listenEntry e then s.updPort e.egress PortRec.relisten else s).gain m n := by
  rw [State.unsent]
  exact freed_gain s _

/-- What the retirement of a SENT entry hands and changes, but for attempts (R73, R76). -/
def State.sentRetired (s : State) (e : ProbeEntry) : State :=
  if s.listenEntry e ∧ e.valid = 0 then
    (s.updPort e.egress fun r => { r with listenProbe := none }).hand (some e.egress) .listenCompletion
  else if s.listenEntry e then s.updPort e.egress PortRec.relisten
  else if e.purpose ≠ .listen ∧ e.valid = 0 ∧ 0 < e.stale then s.handUrgent e.egress false
  else s

theorem retireSent_gain (s : State) (e : ProbeEntry) : ∃ m n, 0 < m ∧ 0 < n ∧
    (s.retireSent e).entryFreed = (s.sentRetired e).gain m n := by
  unfold State.retireSent State.sentRetired
  by_cases hl : s.listenEntry e = true
  · have listen : e.purpose = .listen := (of_decide_eq_true hl).1
    by_cases hv : e.valid = 0
    · rw [if_pos listen, if_pos hl, if_pos hv, if_pos ⟨hl, hv⟩]
      exact ⟨1, 1, Nat.one_pos, Nat.one_pos, rfl⟩
    · rw [if_pos listen, if_pos hl, if_neg hv, if_neg fun h => hv h.2, if_pos hl]
      exact freed_gain s _
  · refine ⟨1, 1, Nat.one_pos, Nat.one_pos, ?_⟩
    by_cases hp : e.purpose = .listen
    · rw [if_pos hp, if_neg hl, if_neg fun h => hl h.1, if_neg hl, if_neg fun h => h.1 hp]
      rfl
    · by_cases hs : e.valid = 0 ∧ 0 < e.stale
      · rw [if_neg hp, if_pos hs, if_neg fun h => hl h.1, if_neg hl, if_pos ⟨hp, hs⟩]
        rfl
      · rw [if_neg hp, if_neg hs, if_neg fun h => hl h.1, if_neg hl, if_neg fun h => hs h.2]
        rfl

set_option Elab.async false in
theorem sentRetired_taps (s : State) (e : ProbeEntry) (taps : PerTap TapRec) :
    { s.sentRetired e with taps := taps } = { s with taps := taps }.sentRetired e := by
  have listens : State.listenEntry { s with taps := taps } e = s.listenEntry e := rfl
  unfold State.sentRetired
  rw [listens]
  split
  · rfl
  · split
    · rfl
    · split <;> rfl

theorem taps_sentRetired (s : State) (e : ProbeEntry) : (s.sentRetired e).taps = s.taps :=
  (congrArg State.taps (sentRetired_taps s e s.taps)).symm

theorem gain_eq (s : State) (m n : Nat) : s.gain m n = { s with taps := (s.gain m n).taps } := rfl

theorem gain_tap (s : State) (m n : Nat) (t : TapId) : ∃ k, (k = m ∨ k = n) ∧
    (s.gain m n).taps.get t = { s.taps.get t with attempts := (s.taps.get t).attempts + k } := by
  cases t
  · exact ⟨m, .inl rfl, rfl⟩
  · exact ⟨n, .inr rfl, rfl⟩

theorem listenEntry_iff (s : State) (e : ProbeEntry) : s.listenEntry e = true ↔ e.purpose = .listen
    ∧ (s.port e.egress).state = .listen ∧ (s.port e.egress).listenProbe = some e.sequence := decide_eq_true_iff

theorem unsent_tap (s : State) (e : ProbeEntry) (t : TapId) : ∃ k, 0 < k ∧
    (s.unsent e).taps.get t = { s.taps.get t with attempts := (s.taps.get t).attempts + k } := by
  obtain ⟨m, n, hm, hn, hgain⟩ := unsent_gain s e
  have taps : (if s.listenEntry e then s.updPort e.egress PortRec.relisten else s).taps = s.taps := by split <;> rfl
  obtain ⟨k, hk, htap⟩ := gain_tap (if s.listenEntry e then s.updPort e.egress PortRec.relisten else s) m n t
  rw [hgain, htap, taps]
  exact ⟨k, by obtain rfl | rfl := hk <;> assumption, rfl⟩

set_option Elab.async false in
/-- A dropped probe changes the queue of its tap and adds to its attempts. -/
theorem dropProbe_attempts (x : TapRec) (n : Word16) : x.attempts ≤ (x.dropProbe n).attempts
    ∧ x.dropProbe n = { x with attempts := (x.dropProbe n).attempts, queue := (x.dropProbe n).queue } := by
  obtain ⟨m, hm, hx⟩ := x.dropProbe_eq n
  rw [hx]
  exact ⟨hm, rfl⟩

/-- Settles O42. -/
theorem entriesRetireAtTheirLife : Obligations.EntriesRetireAtTheirLife := by
  intro s e rest hOn due mine r again
  have due_iff : (s.running = true ∧ s.lifeOver e = true) ↔ due := by rw [lifeOver_iff]
  refine ⟨fun hp => ⟨?_, ?_⟩, fun hp hno => ?_, fun hp hno => ?_, fun hp hdue hc => ?_, fun hp hdue hc => ?_⟩
  · refine (powered_next hOn _).trans ?_
    rw [hp]
  · refine (powered_next hOn _).trans ?_
    rw [hp]
  · refine (powered_next hOn _).trans ?_
    rw [hp]
    dsimp only
    rw [if_neg]
    rintro ⟨hr, hc, hl⟩
    exact hno.elim (fun h => h (due_iff.mp ⟨hr, hl⟩)) fun h => by rw [hc] at h; cases h
  · refine (powered_next hOn _).trans ?_
    rw [hp]
    dsimp only
    rw [if_neg]
    rintro ⟨hr, hc, hl⟩
    exact hno.elim (fun h => h (due_iff.mp ⟨hr, hl⟩)) fun h => by rw [hc] at h; cases h
  · obtain ⟨hr, hl⟩ := due_iff.mpr hdue
    obtain ⟨m, n, hm, hn, hgain⟩ := retireSent_gain { s with probes := rest } e
    let w : State := { s with probes := rest }
    have taps : (w.sentRetired e).taps = s.taps := taps_sentRetired w e
    refine ⟨(w.sentRetired e).gain m n, ?_, ?_, ?_, ?_, ?_, ?_⟩
    · refine (powered_next hOn _).trans ?_
      rw [hp]
      dsimp only
      rw [if_pos ⟨hr, hc, hl⟩]
      exact congrArg Host.Outcome.next hgain
    · rw [State.gain, taps]; rfl
    · rw [State.gain, taps]; rfl
    · rw [State.gain, taps]; exact Nat.lt_add_of_pos_right hm
    · rw [State.gain, taps]; exact Nat.lt_add_of_pos_right hn
    · refine (gain_eq _ m n).trans ((sentRetired_taps w e _).trans ?_)
      exact if_congr (and_congr (listenEntry_iff s e) Iff.rfl) rfl (if_congr (listenEntry_iff s e) rfl rfl)
  · obtain ⟨hr, hl⟩ := due_iff.mpr hdue
    let w : State := { s with
      probes := rest, taps := ⟨s.taps.a.dropProbe e.sequence, s.taps.b.dropProbe e.sequence⟩ }
    obtain ⟨m, n, hm, hn, hgain⟩ := unsent_gain w e
    have listens : w.listenEntry e = s.listenEntry e := rfl
    refine ⟨w.unsent e, ?_, ?_, fun t => ?_⟩
    · refine (powered_next hOn _).trans ?_
      rw [hp]
      dsimp only
      rw [if_pos ⟨hr, hc, hl⟩]
    · rw [hgain, listens, if_congr (listenEntry_iff s e) rfl rfl]
      by_cases hm : mine
      · rw [if_pos hm, if_pos hm]; rfl
      · rw [if_neg hm, if_neg hm]; rfl
    · obtain ⟨k, hk, htap⟩ := unsent_tap w e t
      have drops : w.taps.get t = (s.taps.get t).dropProbe e.sequence := by cases t <;> rfl
      rw [htap, drops]
      obtain ⟨hmore, hrest⟩ := dropProbe_attempts (s.taps.get t) e.sequence
      refine ⟨Nat.lt_of_le_of_lt hmore (Nat.lt_add_of_pos_right hk), ?_, ?_⟩
      · rw [hrest]
      · rw [TapRec.dropProbe]
        cases (s.taps.get t).sending with
        | head => cases (s.taps.get t).queue <;> rfl
        | idle => rfl
        | orphan q => rfl
end Sys2Proof.Machine
end

section
/-! PROOF. The tap links: what comes of a link that is UP or lost (R17, R29, R30, R75). -/

namespace Sys2Proof.Machine

open Sys2Proof.Spec

/-! ### Entries retired unsent (R75) -/

/-- The listen probe of a port is one of the entries retired. -/
def State.loses (s : State) (gone : List Word16) (p : Port) : Bool :=
  s.probes.any fun e => decide (e.sequence ∈ gone) && decide (e.egress = p) && s.listenEntry e

theorem loses_iff (s : State) (gone : List Word16) (p : Port) : s.loses gone p = true ↔ ∃ e ∈ s.probes,
    e.sequence ∈ gone ∧ e.egress = p ∧ e.purpose = .listen ∧ (s.port p).state = .listen
      ∧ (s.port p).listenProbe = some e.sequence := by
  rw [State.loses, List.any_eq_true]
  refine exists_congr fun e => and_congr Iff.rfl ?_
  rw [Bool.and_eq_true, Bool.and_eq_true, decide_eq_true_eq, decide_eq_true_eq, listenEntry_iff, and_assoc]
  refine and_congr Iff.rfl (and_congr_right fun he => ?_)
  subst he
  exact Iff.rfl

/-- A state with another probe list and other ports. -/
def State.listed (s : State) (probes : List ProbeEntry) (ports : Vector PortRec 48) : State :=
  { s with probes := probes, ports := ports }

theorem listed_self (s : State) : s.listed s.probes s.ports = s := rfl

theorem listed_listed (s : State) (probes more : List ProbeEntry) (ports ports' : Vector PortRec 48) :
    (s.listed probes ports).listed more ports' = s.listed more ports' := rfl

/-- The state without the entries of some sequence numbers, each port whose listen probe is among them probed again. -/
def State.retired (s : State) (gone : List Word16) : State := s.listed
  (s.probes.filter fun e => decide (e.sequence ∉ gone))
  (Vector.ofFn fun p : Port => if s.loses gone p then s.ports[p].relisten else s.ports[p])

theorem retired_eq (s : State) (gone : List Word16) : s.retired gone = s.listed
    (s.probes.filter fun e => decide (e.sequence ∉ gone))
    (Vector.ofFn fun p : Port => if s.loses gone p then (s.port p).relisten else s.port p) := rfl

theorem retired_port (s : State) (gone : List Word16) (p : Port) :
    (s.retired gone).port p = if s.loses gone p then (s.port p).relisten else s.port p := getElem_ofFn_fin _ p

set_option Elab.async false in
theorem retired_gain (s : State) (gone : List Word16) (m n : Nat) : (s.gain m n).retired gone = (s.retired gone).gain m n := rfl

theorem retired_absent {s : State} {gone : List Word16} (h : ∀ e ∈ s.probes, e.sequence ∉ gone) : s.retired gone = s := by
  have probes : s.probes.filter (fun e => decide (e.sequence ∉ gone)) = s.probes :=
    List.filter_eq_self.mpr fun e he => decide_eq_true (h e he)
  have kept (p : Port) : ¬s.loses gone p = true := fun hl =>
    let ⟨e, he, hg, _⟩ := (loses_iff s gone p).mp hl
    h e he hg
  have ports : (Vector.ofFn fun p : Port => if s.loses gone p then (s.port p).relisten else s.port p) = s.ports :=
    vector_ext_fin fun p => (getElem_ofFn_fin _ p).trans (if_neg (kept p))
  rw [State.retired, probes, ports, listed_self]

/-- Of entries with distinct numbers the first of a number is the only one of it. -/
theorem eraseP_sequence {probes : List ProbeEntry} (h : (probes.map (·.sequence)).Nodup) (k : Word16) :
    probes.eraseP (fun e => decide (e.sequence = k)) = probes.filter fun e => decide (e.sequence ∉ [k]) := by
  induction probes with
  | nil => rfl
  | cons e es ih =>
    obtain ⟨hne, hes⟩ := List.nodup_cons.mp h
    by_cases he : e.sequence = k
    · have rest : es.filter (fun e => decide (e.sequence ∉ [k])) = es := List.filter_eq_self.mpr fun x hx =>
        decide_eq_true fun hk => hne (List.mem_map.mpr ⟨x, hx, (List.mem_singleton.mp hk).trans he.symm⟩)
      rw [List.eraseP_cons, decide_eq_true he, List.filter_cons, rest, if_neg (by simp [he])]
      rfl
    · rw [List.eraseP_cons, decide_eq_false he, ih hes, List.filter_cons, if_pos (by simp [he])]
      rfl

theorem loses_one {s : State} (h : s.listOk) {e : ProbeEntry} (he : e ∈ s.probes) (p : Port) :
    s.loses [e.sequence] p = true ↔ e.egress = p ∧ s.listenEntry e = true := by
  rw [State.loses, List.any_eq_true]
  constructor
  · rintro ⟨x, hx, hl⟩
    rw [Bool.and_eq_true, Bool.and_eq_true, decide_eq_true_eq, decide_eq_true_eq, List.mem_singleton] at hl
    obtain ⟨⟨hs, hp⟩, hl⟩ := hl
    obtain rfl : x = e := List.inj_on_of_nodup_map h.2.1 hx he hs
    exact ⟨hp, hl⟩
  · rintro ⟨hp, hl⟩
    refine ⟨e, he, ?_⟩
    rw [Bool.and_eq_true, Bool.and_eq_true, decide_eq_true_eq, decide_eq_true_eq, List.mem_singleton]
    exact ⟨⟨rfl, hp⟩, hl⟩

theorem retired_one {s : State} (h : s.listOk) {e : ProbeEntry} (he : e ∈ s.probes) : s.retired [e.sequence] = s.listed
    (s.probes.filter fun x => decide (x.sequence ∉ [e.sequence]))
    (if s.listenEntry e then s.ports.set e.egress (s.port e.egress).relisten else s.ports) := by
  have ports : (Vector.ofFn fun p : Port => if s.loses [e.sequence] p then (s.port p).relisten else s.port p) =
      if s.listenEntry e then s.ports.set e.egress (s.port e.egress).relisten else s.ports := by
    refine vector_ext_fin fun p => (getElem_ofFn_fin _ p).trans ?_
    by_cases hl : s.listenEntry e = true
    · rw [if_pos hl, getElem_set_fin]
      by_cases hp : e.egress = p
      · subst hp
        rw [if_pos ((loses_one h he e.egress).mpr ⟨rfl, hl⟩), if_pos rfl]
      · rw [if_neg fun h' => hp ((loses_one h he p).mp h').1, if_neg (Ne.symm hp)]
    · rw [if_neg hl, if_neg fun h' => hl ((loses_one h he p).mp h').2]
  rw [State.retired, ports]

set_option Elab.async false in
/-- An entry that retires unsent leaves the list, its port is probed again where the entry held its listen probe, and the
taps gain attempts (R75). -/
theorem retireUnsent_eq {s : State} (h : s.listOk) (k : Word16) : ∃ m n, s.retireUnsent k = (s.retired [k]).gain m n
    ∧ ((∃ e ∈ s.probes, e.sequence = k) → 0 < m ∧ 0 < n) := by
  by_cases hk : ∃ e ∈ s.probes, e.sequence = k
  · obtain ⟨x, hx, hxk⟩ := hk
    obtain ⟨e, hfind⟩ := Option.isSome_iff_exists.mp
      (List.find?_isSome.mpr ⟨x, hx, decide_eq_true hxk⟩ : (s.probes.find? fun e => decide (e.sequence = k)).isSome)
    have he : e ∈ s.probes := List.mem_of_find?_eq_some hfind
    have hek : e.sequence = k := by simpa using List.find?_some hfind
    obtain ⟨m, n, hm, hn, hgain⟩ := unsent_gain { s with probes := s.probes.eraseP fun e => decide (e.sequence = k) } e
    refine ⟨m, n, ?_, fun _ => ⟨hm, hn⟩⟩
    rw [State.retireUnsent, hfind]
    refine hgain.trans (congrArg (State.gain · m n) ?_)
    subst hek
    rw [eraseP_sequence h.2.1, retired_one h he]
    have listens : State.listenEntry { s with probes := s.probes.filter fun x => decide (x.sequence ∉ [e.sequence]) } e =
      s.listenEntry e := rfl
    rw [listens]
    cases s.listenEntry e <;> rfl
  · have absent : ∀ e ∈ s.probes, e.sequence ≠ k := fun e he hs => hk ⟨e, he, hs⟩
    refine ⟨0, 0, ?_, fun h => (hk h).elim⟩
    rw [retireUnsent_absent absent, retired_absent fun e he hs => absent e he (List.mem_singleton.mp hs)]
    rfl

theorem loses_left {s : State} {gone : List Word16} (more : List Word16) {p : Port} (h : s.loses gone p = true) :
    s.loses (gone ++ more) p = true := by
  obtain ⟨e, he, hg, hrest⟩ := (loses_iff ..).mp h
  exact (loses_iff ..).mpr ⟨e, he, List.mem_append_left _ hg, hrest⟩

/-- A port that lost no listen probe yet loses one to the next retirements as to all of them. -/
theorem loses_after {s : State} {gone : List Word16} (more : List Word16) {p : Port} (h : ¬s.loses gone p = true) :
    (s.retired gone).loses more p = true ↔ s.loses (gone ++ more) p = true := by
  have kept : (s.retired gone).port p = s.port p := (retired_port ..).trans (if_neg h)
  rw [loses_iff, loses_iff, kept]
  constructor
  · rintro ⟨e, he, hg, hrest⟩
    exact ⟨e, List.mem_of_mem_filter he, List.mem_append_right _ hg, hrest⟩
  · rintro ⟨e, he, hg, hrest⟩
    have hne : e.sequence ∉ gone := fun hg => h ((loses_iff ..).mpr ⟨e, he, hg, hrest⟩)
    exact ⟨e, List.mem_filter.mpr ⟨he, decide_eq_true hne⟩, (List.mem_append.mp hg).resolve_left hne, hrest⟩

theorem retired_retired (s : State) (gone more : List Word16) : (s.retired gone).retired more = s.retired (gone ++ more) := by
  have probes : (s.probes.filter fun e => decide (e.sequence ∉ gone)).filter (fun e => decide (e.sequence ∉ more)) =
      s.probes.filter fun e => decide (e.sequence ∉ gone ++ more) := by
    refine List.filter_filter.trans (List.filter_congr fun e _ => ?_)
    rw [Bool.eq_iff_iff, Bool.and_eq_true, decide_eq_true_eq, decide_eq_true_eq, decide_eq_true_eq, List.mem_append, not_or,
      and_comm]
  have ports : (fun p : Port => if (s.retired gone).loses more p then ((s.retired gone).port p).relisten
      else (s.retired gone).port p) = fun p : Port => if s.loses (gone ++ more) p then (s.port p).relisten else s.port p := by
    funext p
    by_cases hg : s.loses gone p = true
    · rw [if_pos (loses_left more hg), retired_port, if_pos hg, PortRec.relisten, PortRec.relisten, ite_self]
    · rw [if_congr (loses_after more hg) rfl rfl, retired_port, if_neg hg]
  have list : (s.retired gone).probes = s.probes.filter fun e => decide (e.sequence ∉ gone) := rfl
  rw [retired_eq _ more, list, probes, ports]
  exact listed_listed ..

theorem retired_listOk {s : State} (h : s.listOk) (gone : List Word16) (m n : Nat) : ((s.retired gone).gain m n).listOk :=
  listOk_of_probes rfl (ProbesOk.sublist h List.filter_sublist)

set_option Elab.async false in
/-- The unsent retirement of several entries in turn retires them all, and the taps gain attempts if there was one (R75). -/
theorem foldl_retireUnsent {s : State} (h : s.listOk) (gone : List Word16) : ∃ m n,
    gone.foldl State.retireUnsent s = (s.retired gone).gain m n ∧ ((∃ e ∈ s.probes, e.sequence ∈ gone) → 0 < m ∧ 0 < n) := by
  induction gone using List.reverseRecOn with
  | nil =>
    refine ⟨0, 0, ?_, fun ⟨e, _, he⟩ => (List.not_mem_nil he).elim⟩
    rw [retired_absent fun e _ => List.not_mem_nil]
    rfl
  | append_singleton gone k ih =>
    obtain ⟨m, n, heq, hpos⟩ := ih
    obtain ⟨m', n', heq', hpos'⟩ := retireUnsent_eq (retired_listOk h gone m n) k
    refine ⟨m + m', n + n', ?_, fun ⟨e, he, hk⟩ => ?_⟩
    · rw [List.foldl_append, heq, List.foldl_cons, List.foldl_nil, heq', retired_gain, retired_retired, gain_gain]
    · by_cases hg : ∃ x ∈ s.probes, x.sequence ∈ gone
      · exact ⟨Nat.add_pos_left (hpos hg).1 _, Nat.add_pos_left (hpos hg).2 _⟩
      · have hek : e.sequence = k := (List.mem_append.mp hk).elim (fun hm => (hg ⟨e, he, hm⟩).elim) List.mem_singleton.mp
        have left : e ∈ (s.retired gone).probes := List.mem_filter.mpr ⟨he, decide_eq_true fun hm => hg ⟨e, he, hm⟩⟩
        have hmore := hpos' ⟨e, left, hek⟩
        exact ⟨Nat.add_pos_right _ hmore.1, Nat.add_pos_right _ hmore.2⟩

/-! ### The tap links (R17, R29, R30) -/

/-- The sequence numbers that a lost tap retires: those of its queued probes whose entries are not gone. -/
def TapRec.queued (x : TapRec) : List Word16 := (x.queue.filter fun q => !q.entryGone).map (·.sequence)

theorem any_queued (x : TapRec) (e : ProbeEntry) :
    (x.queue.any fun q => !q.entryGone && decide (q.sequence = e.sequence)) = decide (e.sequence ∈ x.queued) := by
  rw [Bool.eq_iff_iff, List.any_eq_true, decide_eq_true_eq, TapRec.queued, List.mem_map]
  refine exists_congr fun q => ?_
  rw [Bool.and_eq_true, List.mem_filter, decide_eq_true_eq, and_assoc]

/-- The loss of a tap link (R29, R30). -/
theorem exec_tapLinkDown {s : State} (t : TapId) (hOn : On s) (hup : (s.taps.get t).linkUp = true) :
    exec (.tapLinkDown t) s =
      .next (((s.taps.get t).queued.foldl State.retireUnsent (s.updTap t TapRec.lost)).raiseAttached .tapDown) := by
  refine (powered_next hOn _).trans ?_
  rw [if_pos hup, TapRec.queued, List.foldl_map]

/-- The loss of a tap moves taps, probe list, ports and flags (R29, R30). -/
theorem lostTap_frame (s : State) (t : TapId) (probes : List ProbeEntry) (ports : Vector PortRec 48) (m n : Nat) :
    let u := (((s.updTap t TapRec.lost).listed probes ports).gain m n).raiseAttached .tapDown
    u = { s with taps := u.taps, probes := u.probes, ports := u.ports, cps := (s.raiseAttached .tapDown).cps } := rfl

theorem lostTap_tap (s : State) (t t' : TapId) (probes : List ProbeEntry) (ports : Vector PortRec 48) (m n : Nat) :
    ∃ k, (k = m ∨ k = n) ∧ ((((s.updTap t TapRec.lost).listed probes ports).gain m n).raiseAttached .tapDown).taps.get t' =
      { (s.updTap t TapRec.lost).taps.get t' with attempts := ((s.updTap t TapRec.lost).taps.get t').attempts + k } :=
  gain_tap (s.updTap t TapRec.lost) m n t'

set_option Elab.async false in
theorem lost_attempts (s : State) (t t' : TapId) :
    ((s.updTap t TapRec.lost).taps.get t').attempts = (s.taps.get t').attempts := by
  cases t <;> cases t' <;> rfl

/-- Settles O36. -/
theorem tapLinkChangesTaken : Obligations.TapLinkChangesTaken := by
  intro s t hOn x
  refine ⟨powered_next hOn _, fun hx => ?_, fun hx hlist => ?_⟩
  · refine (powered_next hOn _).trans ?_
    rw [if_neg (by simp [x, hx])]
  · obtain ⟨m, n, heq, hpos⟩ := foldl_retireUnsent (s := s.updTap t TapRec.lost) hlist x.queued
    let probes := s.probes.filter fun e => decide (e.sequence ∉ x.queued)
    let ports : Vector PortRec 48 := Vector.ofFn fun p : Port =>
      if (s.updTap t TapRec.lost).loses x.queued p then (s.port p).relisten else s.port p
    have list : probes =
        s.probes.filter fun e => !x.queue.any fun q => !q.entryGone && decide (q.sequence = e.sequence) :=
      List.filter_congr fun e _ => by rw [any_queued, decide_not]
    have tap (t' : TapId) := lostTap_tap s t t' probes ports m n
    have run : exec (.tapLinkDown t) s =
        .next ((((s.updTap t TapRec.lost).listed probes ports).gain m n).raiseAttached .tapDown) := by
      rw [exec_tapLinkDown t hOn hx, heq, retired_eq]
      rfl
    refine ⟨_, run, lostTap_frame s t probes ports m n, ?_, fun t' ht => ?_, list, fun t' => ⟨?_, fun ⟨e, he, hr⟩ => ?_⟩, fun p => ?_⟩
    · obtain ⟨k, -, hk⟩ := tap t
      rw [hk, State.updTap, PerTap.get_set_self]
      rfl
    · obtain ⟨k, -, hk⟩ := tap t'
      rw [hk, State.updTap, PerTap.get_set_of_ne _ ht]
      rfl
    · obtain ⟨k, -, hk⟩ := tap t'
      rw [hk, ← lost_attempts s t t']
      exact Nat.le_add_right _ _
    · obtain ⟨k, hmn, hk⟩ := tap t'
      obtain ⟨hm, hn⟩ := hpos ⟨e, he, of_decide_eq_true ((any_queued x e).symm.trans hr)⟩
      rw [hk, ← lost_attempts s t t']
      exact Nat.lt_add_of_pos_right (by obtain rfl | rfl := hmn <;> assumption)
    · refine (getElem_ofFn_fin _ p).trans (if_congr ?_ rfl rfl)
      simp only [any_queued, decide_eq_true_eq]
      exact loses_iff (s.updTap t TapRec.lost) x.queued p

end Sys2Proof.Machine
end

section
/-! PROOF. The analysis path, the judging of own probes and the FIND engine (R25, R72, R79 to R96, R112 to R114). -/

namespace Sys2Proof.Machine

open Sys2Proof.Spec

/-! ### Own probes judged (R72, R83 to R92) -/

/-- The entry that a return concerns (R72). -/
def State.concerns (s : State) (head : List Byte) (p : Port) (e : ProbeEntry) : Bool :=
  decide (headRun head = s.runNumber) && decide (e.sequence = headSequence head ∧ e.egress = p)

theorem entryConcerned_eq (s : State) (head : List Byte) (p : Port) :
    s.entryConcerned head p = s.probes.find? (s.concerns head p) := by
  unfold State.entryConcerned State.concerns
  by_cases h : headRun head = s.runNumber
  · rw [if_pos h, decide_eq_true h]
    rfl
  · rw [if_neg h, decide_eq_false h]
    exact (List.find?_eq_none.mpr fun e _ => Bool.false_ne_true).symm

/-- At most one entry is concerned: the numbers of the list are distinct (R69). -/
theorem concerns_unique {s : State} (h : s.listOk) {head : List Byte} {p : Port} {x e : ProbeEntry}
    (hx : s.probes.find? (s.concerns head p) = some x) (he : e ∈ s.probes) : s.concerns head p e = true ↔ e = x := by
  have hxc : s.concerns head p x = true := List.find?_some hx
  have sequence {y : ProbeEntry} (hy : s.concerns head p y = true) : y.sequence = headSequence head :=
    (of_decide_eq_true (Bool.and_eq_true_iff.mp hy).2).1
  refine ⟨fun hc => ?_, fun hex => hex ▸ hxc⟩
  exact List.inj_on_of_nodup_map h.2.1 he (List.mem_of_find?_eq_some hx) ((sequence hc).trans (sequence hxc).symm)

/-- A return is counted in the entry it concerns, and in no other (R72, R85). -/
theorem countReturn_eq {s : State} (h : s.listOk) (head : List Byte) (p : Port) (stale : Bool) : s.countReturn head p stale =
    { s with probes := s.probes.map fun e => if s.concerns head p e then e.returned stale else e } := by
  unfold State.countReturn
  rw [entryConcerned_eq]
  cases hx : s.probes.find? (s.concerns head p) with
  | none =>
    have kept : s.probes.map (fun e => if s.concerns head p e then e.returned stale else e) = s.probes :=
      (List.map_congr_left fun e he => if_neg (List.find?_eq_none.mp hx e he)).trans (List.map_id' _)
    rw [kept]
  | some x =>
    have same : s.probes.map (fun e => if e = x then e.returned stale else e) =
        s.probes.map fun e => if s.concerns head p e then e.returned stale else e :=
      List.map_congr_left fun e he => if_congr (concerns_unique h hx he).symm rfl rfl
    exact congrArg (fun ps => { s with probes := ps }) same

theorem returned_eq (e : ProbeEntry) (stale : Bool) : e.returned stale = { e with
    stale := if stale then min (e.stale + 1) 255 else e.stale
    valid := if stale then e.valid else min (e.valid + 1) 255 } := by
  cases stale <;> rfl

/-- The four tests of staleness (R83). -/
theorem staleReturn_eq (s : State) (head : List Byte) (p q : Port) : s.staleReturn head p q =
    decide (decide (headRun head = s.runNumber) = false ∨ headEpoch head ≠ s.epoch
      ∨ (s.port p).delivered.rank < (s.port p).presented.rank ∨ (s.port q).delivered.rank < (s.port q).presented.rank
      ∨ (s.port p).state = .down) := by
  rw [Bool.eq_iff_iff]
  simp only [State.staleReturn, PortRec.closingPending, Bool.or_eq_true, decide_eq_true_eq, decide_eq_false_iff_not, or_assoc,
    ne_eq]

/-- Settles O45. -/
theorem ownProbesAreJudged : Obligations.OwnProbesAreJudged := by
  intro s x p hlist q current closing stale concerned delay purpose verdict
  have hstale : s.staleReturn x.head p q = stale := staleReturn_eq s x.head p q
  have hpurpose : (s.entryConcerned x.head p).map (·.purpose) = purpose := by rw [entryConcerned_eq]; rfl
  have hverdict (chosen : Option Port) : verdictOf p q delay purpose chosen = verdict chosen := by
    unfold verdictOf
    rfl
  have judged : s.judge x p = if stale then .stale p
      else .valid p (verdict (s.choosePort p q)) (verdict (if (s.port q).mode = .pinned then none else some q)) := by
    unfold State.judge
    dsimp only
    rw [hstale, hpurpose]
    exact if_congr Iff.rfl rfl (congrArg₂ (Finding.valid p) (hverdict _) (hverdict _))
  refine ⟨judged, ?_⟩
  rw [judged]
  have counted (b : Bool) : s.countReturn x.head p b = { s with
      probes := s.probes.map fun e =>
        if concerned e then
          { e with
            stale := if b then min (e.stale + 1) 255 else e.stale
            valid := if b then e.valid else min (e.valid + 1) 255 }
        else e } := by
    rw [countReturn_eq hlist]
    simp only [returned_eq]
    rfl
  cases hs : stale with
  | true => exact counted true
  | false => exact counted false

/-! ### The analysis path (R25, R79 to R82, R94 to R96) -/

/-- A word of the head of a frame. -/
def headWord (head : List Byte) (i : Nat) : Nat := (head.getD i 0).toNat * 256 + (head.getD (i + 1) 0).toNat

theorem wordAt_eq (head : List Byte) (i : Nat) : wordAt head i = headWord head i := by
  simp [wordAt, beNat, bytesAt, headWord, List.range_succ]

set_option Elab.async false in
theorem headChassis_eq (head : List Byte) : headChassis head = headWord head 14 * 65536 + headWord head 16 := by
  have bytes : bytesAt head 14 4 = [head.getD 14 0, head.getD 15 0, head.getD 16 0, head.getD 17 0] := rfl
  simp only [headChassis, beNat, bytes, headWord, List.foldl_cons, List.foldl_nil, Nat.reduceAdd]
  omega

theorem headSum_eq (head : List Byte) : wordSum (bytesAt head 14 14) = headWord head 14 + headWord head 16
    + headWord head 18 + headWord head 20 + headWord head 22 + headWord head 24 + headWord head 26 := by
  have bytes : bytesAt head 14 14 = [head.getD 14 0, head.getD 15 0, head.getD 16 0, head.getD 17 0, head.getD 18 0,
    head.getD 19 0, head.getD 20 0, head.getD 21 0, head.getD 22 0, head.getD 23 0, head.getD 24 0, head.getD 25 0,
    head.getD 26 0, head.getD 27 0] := rfl
  simp only [bytes, wordSum, headWord, Nat.reduceAdd]
  omega

/-- A probe candidate whose check sum and version are right (R80). -/
def HeadSound (head : List Byte) : Prop := wordSum (bytesAt head 14 14) % 65536 = 65535 ∧ headVersion head = 1

theorem frameKind_plain {pr : Profile} {head : List Byte} (h : isCandidate pr head = false) : frameKind pr head = .plain :=
  if_pos (by rw [h]; rfl)

theorem frameKind_unsound {pr : Profile} {head : List Byte} (h : isCandidate pr head = true) (hs : ¬HeadSound head) :
    frameKind pr head = .malformed :=
  (if_neg (by rw [h]; exact Bool.false_ne_true)).trans (if_pos (by
    by_contra hc
    obtain ⟨hsum, hversion⟩ := not_or.mp hc
    exact hs ⟨not_not.mp hsum, not_not.mp hversion⟩))

theorem frameKind_sound {pr : Profile} {head : List Byte} (h : isCandidate pr head = true) (hs : HeadSound head) :
    frameKind pr head = if headChassis head ≠ pr.chassisNumber.toNat then .foreign
      else match portArg (head.getD 19 0) with
        | none => .malformed
        | some p => .own p :=
  (if_neg (by rw [h]; exact Bool.false_ne_true)).trans (if_neg fun hc => hc.elim (fun hn => hn hs.1) fun hn => hn hs.2)

/-- The FIFO that the analysis path takes from: the only one that holds a frame, or the one it did not take from last. -/
theorem nextFifo_turn {s : State} {t : TapId} {x : Slot} {rest : List Slot} (hx : (s.taps.get t).fifo = x :: rest)
    (hturn : s.lastTaken ≠ t ∨ ∀ t', t' ≠ t → (s.taps.get t').fifo = []) : s.nextFifo = some t := by
  cases t with
  | a =>
    have hx : s.taps.a.fifo = x :: rest := hx
    cases hb : s.taps.b.fifo with
    | nil => rw [State.nextFifo, hx, hb]
    | cons y ys =>
      have hlast : s.lastTaken = .b := by
        cases hl : s.lastTaken with
        | a => exact (hturn.elim (fun h => h hl) fun h => List.cons_ne_nil y ys (hb.symm.trans (h .b TapId.noConfusion))).elim
        | b => rfl
      rw [State.nextFifo, hx, hb, hlast]
      rfl
  | b =>
    have hx : s.taps.b.fifo = x :: rest := hx
    cases ha : s.taps.a.fifo with
    | nil => rw [State.nextFifo, hx, ha]
    | cons y ys =>
      have hlast : s.lastTaken = .a := by
        cases hl : s.lastTaken with
        | a => rfl
        | b => exact (hturn.elim (fun h => h hl) fun h => List.cons_ne_nil y ys (ha.symm.trans (h .a TapId.noConfusion))).elim
      rw [State.nextFifo, hx, ha, hlast]
      rfl

/-- The state whose analysis path has taken a frame from a FIFO and holds it. -/
def State.holding (s : State) (taps : PerTap TapRec) (last : TapId) (probes : List ProbeEntry) (w : Option Working) : State :=
  { s with taps := taps, lastTaken := last, probes := probes, analysing := w }

set_option Elab.async false in
theorem holding_self (s : State) : s.holding s.taps s.lastTaken s.probes s.analysing = s := rfl

theorem finding_holding (s : State) (taps : PerTap TapRec) (last : TapId) (w : Option Working) (x : Slot) :
    (s.holding taps last s.probes w).finding x = s.finding x := rfl

theorem countReturn_holding (s : State) (taps : PerTap TapRec) (last : TapId) (head : List Byte) (p : Port) (stale : Bool) :
    (s.holding taps last s.probes s.analysing).countReturn head p stale =
      s.holding taps last (s.countReturn head p stale).probes s.analysing := by
  have concerned : (s.holding taps last s.probes s.analysing).entryConcerned head p = s.entryConcerned head p := rfl
  unfold State.countReturn
  rw [concerned]
  cases s.entryConcerned head p <;> rfl

theorem noteReturn_holding (s : State) (taps : PerTap TapRec) (last : TapId) (w : Working) :
    (s.holding taps last s.probes s.analysing).noteReturn w =
      s.holding taps last (s.noteReturn w).probes s.analysing := by
  obtain ⟨x, f⟩ := w
  cases f with
  | plain => rfl
  | malformed => rfl
  | foreign => rfl
  | stale p => exact countReturn_holding ..
  | valid p verdict ifPinned => exact countReturn_holding ..

theorem hold_holding (s : State) (taps : PerTap TapRec) (last : TapId) (x : Slot) :
    (s.holding taps last s.probes s.analysing).hold x =
      s.holding taps last (s.noteReturn ⟨x, s.finding x⟩).probes (some ⟨x, s.finding x⟩) := by
  rw [State.hold, finding_holding]
  exact congrArg (fun u : State => { u with analysing := some (⟨x, s.finding x⟩ : Working) }) (noteReturn_holding ..)

/-- The free analysis path takes a frame in its turn and holds it, tested (R25). -/
theorem exec_analysisTake {s : State} {t : TapId} {x : Slot} {rest : List Slot} (hOn : On s) (hfree : s.analysing = none)
    (hr : s.running = true) (hx : (s.taps.get t).fifo = x :: rest)
    (hturn : s.lastTaken ≠ t ∨ ∀ t', t' ≠ t → (s.taps.get t').fifo = []) :
    exec .analysisTake s = .next (s.holding (s.taps.set t { s.taps.get t with fifo := rest }) t
      (s.noteReturn ⟨x, s.finding x⟩).probes (some ⟨x, s.finding x⟩)) := by
  refine (powered_next hOn _).trans ?_
  rw [hfree]
  dsimp only
  rw [State.takeFrame, nextFifo_turn hx hturn]
  dsimp only
  rw [hr, hx]
  exact congrArg Host.Outcome.next (hold_holding s (s.taps.set t { s.taps.get t with fifo := rest }) t x)

set_option Elab.async false in
/-- A frame that is no own probe moves no list entry. -/
theorem noteReturn_other {s : State} {x : Slot} {f : Finding} (h : f = .plain ∨ f = .malformed ∨ f = .foreign) :
    (s.noteReturn ⟨x, f⟩).probes = s.probes := by
  obtain rfl | rfl | rfl := h <;> rfl

/-- Settles O44. -/
theorem analysisTakesTheFifosInTurn : Obligations.AnalysisTakesTheFifosInTurn := by
  intro s t x rest hOn pr h word candidate sound ours u
  have hcandidate : isCandidate pr x.head = true ↔ candidate := by
    rw [isCandidate, wordAt_eq, Bool.and_eq_true, decide_eq_true_eq, decide_eq_true_eq]
    rfl
  have hsound : HeadSound x.head ↔ sound := by rw [HeadSound, headSum_eq]; rfl
  have hours : headChassis x.head = pr.chassisNumber.toNat ↔ ours := by rw [headChassis_eq]; rfl
  have foreign (hc : candidate) (hs : sound) (ho : ¬ours) : frameKind pr x.head = .foreign :=
    (frameKind_sound (hcandidate.mpr hc) (hsound.mpr hs)).trans (if_pos fun he => ho (hours.mp he))
  have mine (hc : candidate) (hs : sound) (ho : ours) : frameKind pr x.head = match portArg (x.head.getD 19 0) with
      | none => .malformed
      | some p => .own p :=
    (frameKind_sound (hcandidate.mpr hc) (hsound.mpr hs)).trans (if_neg fun hn => hn (hours.mpr ho))
  refine ⟨fun hfree ha hb => ?_, fun hfree hr => ?_, fun hfree hr hx hturn => ?_, fun f hf => ?_⟩
  · refine (powered_next hOn _).trans ?_
    rw [hfree, State.takeFrame, State.nextFifo, ha, hb]
  · refine (powered_next hOn _).trans ?_
    rw [hfree, State.takeFrame, hr]
    cases s.nextFifo <;> rfl
  · have run := exec_analysisTake hOn hfree hr hx hturn
    have other {f : Finding} (hf : s.finding x = f) (hk : f = .plain ∨ f = .malformed ∨ f = .foreign) :
        exec .analysisTake s = .next (u f) := by
      rw [run, hf, noteReturn_other hk]
      rfl
    refine ⟨fun hc => other ?_ (.inl rfl), fun hc hm => other ?_ (.inr (.inl rfl)), fun hc hs ho => other ?_ (.inr (.inr rfl)),
      fun p hc hs ho hp => ?_⟩
    · rw [State.finding, frameKind_plain (Bool.eq_false_iff.mpr fun hi => hc (hcandidate.mp hi))]
    · by_cases hs : sound
      · obtain ⟨ho, hp⟩ := hm.resolve_left (not_not.mpr hs)
        have none : portArg (x.head.getD 19 0) = none := dif_neg (Nat.not_lt.mpr hp)
        rw [State.finding, mine hc hs ho, none]
      · rw [State.finding, frameKind_unsound (hcandidate.mpr hc) fun h => hs (hsound.mp h)]
    · rw [State.finding, foreign hc hs ho]
    · have lt : (x.head.getD 19 0).toNat < 48 := Nat.lt_of_le_of_lt (Nat.le_of_eq hp) p.isLt
      have port : portArg (x.head.getD 19 0) = some p := (dif_pos lt).trans (congrArg some (Fin.ext hp))
      have judged : s.finding x = s.judge x p := by rw [State.finding, mine hc hs ho, port]
      rw [run, judged]
      rfl
  · intro v
    refine (powered_next hOn _).trans ?_
    rw [hf]
    cases f with
    | plain => rfl
    | malformed => rfl
    | foreign => exact congrArg Host.Outcome.next (if_congr Iff.rfl rfl rfl)
    | stale p => rfl
    | valid p verdict ifPinned => rfl

/-! ### The FIND engine (R112 to R114) -/

/-- A place of a table in its canonical form holds the one entry that stands there (R99). -/
theorem placeGet_iff {t : List (Nat × FpEntry)} (h : tableWf t = true) (k : Nat) (e : FpEntry) :
    placeGet t k = some e ↔ (k, e) ∈ t := by
  refine ⟨placeGet_mem, fun hm => ?_⟩
  obtain ⟨hrising, -⟩ := (tableWf_iff t).mp h
  clear h
  induction t with
  | nil => cases hm
  | cons x xs ih =>
    obtain ⟨hx, hxs⟩ := List.pairwise_cons.mp hrising
    rcases List.mem_cons.mp hm with rfl | hm
    · exact if_pos rfl
    · exact (if_neg (Nat.ne_of_lt (hx _ hm))).trans (ih hm hxs)

/-- The result of a scan that has taken some entries more (R114). -/
def FindResult.gather (r : FindResult) (xs : List (Nat × FpEntry)) : FindResult := { r with
  count := r.count + xs.length
  first := match r.first with
    | some k => some k
    | none => xs.head?.map (·.1)
  copies := (r.copies ++ xs).take 8 }

theorem foldl_take (r : FindResult) (h : r.copies.length ≤ 8) (xs : List (Nat × FpEntry)) :
    xs.foldl (fun r x => r.take x.1 x.2) r = r.gather xs := by
  induction xs generalizing r with
  | nil =>
    rw [FindResult.gather, List.append_nil, List.take_of_length_le h]
    obtain ⟨target, starter, count, first, copies⟩ := r
    cases first <;> rfl
  | cons x xs ih =>
    have room : (r.take x.1 x.2).copies.length ≤ 8 := by
      unfold FindResult.take
      dsimp only
      split
      · rw [List.length_append]; exact Nat.succ_le_of_lt ‹_›
      · exact h
    have count : r.count + 1 + xs.length = r.count + (x :: xs).length := by rw [List.length_cons]; omega
    have copies : ((r.take x.1 x.2).copies ++ xs).take 8 = (r.copies ++ x :: xs).take 8 := by
      unfold FindResult.take
      dsimp only
      split
      · rw [List.append_assoc]; rfl
      · next hfull =>
        have full : r.copies.length = 8 := by omega
        rw [List.take_append_of_le_length (Nat.le_of_eq full.symm), List.take_append_of_le_length (Nat.le_of_eq full.symm)]
    rw [List.foldl_cons, ih _ room, FindResult.gather, copies, FindResult.gather, ← count]
    cases hf : r.first with
    | none => simp [FindResult.take, hf]
    | some k => simp [FindResult.take, hf]

theorem scan_eq (s : State) (next upTo : Nat) {r : FindResult} (h : r.copies.length ≤ 8) : s.scan next upTo r =
    r.gather (s.table.filter fun x => decide (next ≤ x.1 ∧ x.1 < upTo) && s.findMatches r.target x.2) :=
  foldl_take r h _

theorem scanning_none {s : State} (h : ∀ n r, s.find ≠ .scanning n r) : s.scanning = false := by
  unfold State.scanning
  split
  · next n r hf => exact (h n r hf).elim
  · rfl
  · rfl
  · rfl

set_option Elab.async false in
/-- FIND of a target that a byte names starts its scan (R112). -/
theorem exec_find {s : State} (hOn : On s) {cp : CtlPort} (hp : (s.cps.get cp).phase = .receiving)
    (hnone : ∀ n r, s.find ≠ .scanning n r) {b : Byte} {x : Option Port} (hb : anyPortArg b = some x) :
    exec (.find (.command cp b)) s = .next (ok { s with find := .scanning 0 ⟨x, cp, 0, none, []⟩ } cp) := by
  refine (command_runs hOn hp ?_ _).trans ?_
  · rw [hb, scanning_none hnone]
    rfl
  · rw [hb]
    rfl

/-- Settles O48. -/
theorem findGathersEveryMatch : Obligations.FindGathersEveryMatch := by
  intro s hOn
  refine ⟨fun cp x hp hnone => ?_, fun place hnone => ⟨?_, ?_⟩, fun next r hscan hcopies htable => ?_⟩
  · cases x with
    | none => exact exec_find hOn hp hnone rfl
    | some p => exact exec_find hOn hp hnone (anyPortArg_port p)
  · refine (powered_next hOn _).trans ?_
    split
    · next n r hf => exact (hnone n r hf).elim
    · rfl
  · refine (powered_next hOn _).trans ?_
    split
    · next n r hf => exact (hnone n r hf).elim
    · rfl
  · intro live named found gathered
    have matches_eq (e : FpEntry) : s.findMatches r.target e = (decide (live e) && match r.target with
        | some p => e.hasSeen p
        | none => decide (2 ≤ (allPorts.filter e.hasSeen).length)) := by
      unfold State.findMatches
      cases r.target <;> rfl
    have found_eq (upTo : Nat) : (s.table.filter fun x =>
        decide (next ≤ x.1 ∧ x.1 < upTo) && s.findMatches r.target x.2) = found upTo := by
      simp only [matches_eq, ← Bool.and_assoc]
      rfl
    have scanned (upTo : Nat) : s.scan next upTo r = gathered (found upTo) := by
      rw [scan_eq s next upTo hcopies, found_eq]
      rfl
    refine ⟨fun upTo k e => ?_, fun place => ?_, ?_⟩
    · have matches_iff : s.findMatches r.target e = true ↔ live e ∧ named e := by
        rw [matches_eq, Bool.and_eq_true, decide_eq_true_eq]
        dsimp only [named]
        cases r.target with
        | some p => exact Iff.rfl
        | none => exact and_congr_right fun _ => decide_eq_true_iff
      rw [← found_eq, List.mem_filter, Bool.and_eq_true, decide_eq_true_eq, matches_iff, placeGet_iff htable.1]
      tauto
    · refine (powered_next hOn _).trans ?_
      rw [hscan]
      dsimp only
      rw [scanned]
    · refine (powered_next hOn _).trans ?_
      rw [hscan]
      dsimp only
      have whole : s.scan next Config.tablePlaces r = gathered (found 1024) := scanned 1024
      rw [whole]
      rfl

end Sys2Proof.Machine
end

section
/-! PROOF. A tap frame: its receive checks, the arrival at both meters, and its slot in the analysis FIFO (R18 to R24, R33,
R41 to R45, R48, R50, R51). -/

namespace Sys2Proof.Machine

open Sys2Proof.Spec

/-! ### The arrival of a flood copy at the meters (R33, R41 to R43, R48, R50) -/

/-- A port level after an arrival. -/
def State.arrivalLevel (s : State) (p : Port) (w : Nat) : Nat := min (s.ports[p].level + w) Config.levelMax

/-- The port table after an arrival. -/
def State.arrivalPorts (s : State) (p : Port) (w : Nat) : Vector PortRec 48 :=
  s.ports.set p (s.ports[p].meterTo (s.profile.meterOf p) (s.arrivalLevel p w))

/-- The crossings that an arrival hands with a mark. -/
def State.crossings (s : State) (p : Port) (w mark : Nat) : List GateReq :=
  arrivalCrossings p (s.profile.meterOf p) s.ports[p] (s.arrivalLevel p w) mark

/-- The class level after an arrival: none counts from a PINNED port (R50). -/
def State.arrivalClass (s : State) (p : Port) (w : Nat) : Nat :=
  if s.ports[p].mode = .pinned then s.classLevel else min (s.classLevel + w) Config.classMax

/-- An arrival reaches Wc. -/
def State.arrivalWarns (s : State) (p : Port) (w : Nat) : Bool :=
  decide (s.ports[p].mode ≠ .pinned ∧ s.classLevel < s.profile.wc ∧ s.profile.wc ≤ s.arrivalClass p w)

/-- The class meter acts at an arrival. -/
def State.arrivalActs (s : State) (p : Port) (w : Nat) : Bool :=
  decide (s.ports[p].mode ≠ .pinned ∧ s.profile.cc ≤ s.arrivalClass p w ∧ s.classTimer = none)

/-- What the class meter hands at an arrival, the ports being as given. -/
def State.arrivalAct (s : State) (p : Port) (w : Nat) (ports : Vector PortRec 48) : List GateReq :=
  if s.arrivalActs p w then [classRequest { s with classLevel := s.arrivalClass p w, ports := ports }] else []

/-- The class interval timer after an arrival. -/
def State.arrivalTimer (s : State) (p : Port) (w : Nat) : Option Nat :=
  if s.arrivalActs p w then some s.profile.ti else s.classTimer

/-- The event flags after an arrival. -/
def State.arrivalFlags (s : State) (p : Port) (w : Nat) : State :=
  if s.arrivalWarns p w then s.raiseAttached .classWarn else s

/-- A state with other meters, other requests and other control ports. -/
def State.arrived (s : State) (timer : Option Nat) (ports : Vector PortRec 48) (level : Nat) (reqs : List GateReq)
    (cps : PerCp CtlRec) : State :=
  { s with classTimer := timer, ports := ports, classLevel := level, gateReqs := reqs, cps := cps }

theorem portArrival_eq (s : State) (p : Port) (w : Nat) : s.portArrival p w =
    s.arrived s.classTimer (s.arrivalPorts p w) s.classLevel (s.gateReqs ++ s.crossings p w s.freshArrival) s.cps := rfl

theorem portArrival_arrived (s : State) (timer : Option Nat) (level : Nat) (reqs : List GateReq) (cps : PerCp CtlRec)
    (p : Port) (w : Nat) : (s.arrived timer s.ports level reqs cps).portArrival p w =
      s.arrived timer (s.arrivalPorts p w) level
        (reqs ++ s.crossings p w (State.freshArrival { s with gateReqs := reqs })) cps := rfl

theorem classArrival_pinned {s : State} {p : Port} (h : (s.port p).mode = .pinned) (w : Nat) : s.classArrival p w =
    s.arrived (s.arrivalTimer p w) s.ports (s.arrivalClass p w) (s.gateReqs ++ s.arrivalAct p w s.ports)
      (s.arrivalFlags p w).cps := by
  have acts : s.arrivalActs p w = false := decide_eq_false fun hn => hn.1 h
  have warns : s.arrivalWarns p w = false := decide_eq_false fun hn => hn.1 h
  rw [State.classArrival, if_pos h, State.arrivalTimer, State.arrivalClass, if_pos h, State.arrivalAct, State.arrivalFlags,
    acts, warns, if_neg Bool.false_ne_true, if_neg Bool.false_ne_true, if_neg Bool.false_ne_true, List.append_nil]
  rfl

/-- The class level judged against Cc, the flags being set. -/
theorem classUpdate_arrived (s : State) (level : Nat) (cps : PerCp CtlRec) :
    (s.arrived s.classTimer s.ports level s.gateReqs cps).classUpdate =
      if s.profile.cc ≤ level ∧ s.classTimer = none then
        s.arrived (some s.profile.ti) s.ports level (s.gateReqs ++ [classRequest { s with classLevel := level }]) cps
      else s.arrived s.classTimer s.ports level s.gateReqs cps := classUpdate_eq _

set_option Elab.async false in
theorem classArrival_counts {s : State} {p : Port} (h : (s.port p).mode ≠ .pinned) (w : Nat) : s.classArrival p w =
    (s.arrived s.classTimer s.ports (s.arrivalClass p w) s.gateReqs (s.arrivalFlags p w).cps).classUpdate := by
  have level : min (s.classLevel + w) Config.classMax = s.arrivalClass p w := (if_neg h).symm
  have warns : crosses s.classLevel (s.arrivalClass p w) s.profile.wc = s.arrivalWarns p w :=
    decide_eq_decide.mpr ⟨fun hc => ⟨h, hc⟩, fun hc => hc.2⟩
  rw [State.classArrival, if_neg h, State.arrivalFlags]
  dsimp only
  rw [level, warns]
  cases s.arrivalWarns p w <;> rfl

theorem classArrival_eq (s : State) (p : Port) (w : Nat) : s.classArrival p w =
    s.arrived (s.arrivalTimer p w) s.ports (s.arrivalClass p w) (s.gateReqs ++ s.arrivalAct p w s.ports)
      (s.arrivalFlags p w).cps := by
  by_cases h : (s.port p).mode = .pinned
  · exact classArrival_pinned h w
  · rw [classArrival_counts h, classUpdate_arrived]
    unfold State.arrivalTimer State.arrivalAct
    by_cases hc : s.profile.cc ≤ s.arrivalClass p w ∧ s.classTimer = none
    · have acts : s.arrivalActs p w = true := decide_eq_true ⟨h, hc⟩
      rw [if_pos hc, if_pos acts, if_pos acts]
    · have acts : ¬s.arrivalActs p w = true := fun ha => hc (of_decide_eq_true ha).2
      rw [if_neg hc, if_neg acts, if_neg acts, List.append_nil]

/-- The port meter first leaves to the class meter what it would have found. -/
theorem classArrival_after {s : State} {ports : Vector PortRec 48} {p : Port} (h : ports[p].mode = (s.port p).mode) (w : Nat)
    (reqs : List GateReq) : (s.arrived s.classTimer ports s.classLevel reqs s.cps).classArrival p w =
      s.arrived (s.arrivalTimer p w) ports (s.arrivalClass p w) (reqs ++ s.arrivalAct p w ports) (s.arrivalFlags p w).cps := by
  let t := s.arrived s.classTimer ports s.classLevel reqs s.cps
  have level : t.arrivalClass p w = s.arrivalClass p w := if_congr (by rw [← h]; rfl) rfl rfl
  have acts : t.arrivalActs p w = s.arrivalActs p w := by
    unfold State.arrivalActs
    rw [level, ← h]
    rfl
  have warns : t.arrivalWarns p w = s.arrivalWarns p w := by
    unfold State.arrivalWarns
    rw [level, ← h]
    rfl
  have act : t.arrivalAct p w ports = s.arrivalAct p w ports := by
    rw [State.arrivalAct, acts, level]
    rfl
  have flags : (t.arrivalFlags p w).cps = (s.arrivalFlags p w).cps := by
    rw [State.arrivalFlags, warns, State.arrivalFlags]
    cases s.arrivalWarns p w <;> rfl
  have timer : t.arrivalTimer p w = s.arrivalTimer p w := by
    rw [State.arrivalTimer, acts]
    rfl
  refine (classArrival_eq t p w).trans ?_
  rw [level, timer, flags]
  exact congrArg (fun x => s.arrived _ ports _ (reqs ++ x) _) act

/-- The mark of the crossings of an arrival, as the order of the meters gives it. -/
def State.arrivalMark (s : State) (p : Port) (w : Nat) (order : MeterOrder) : Nat :=
  match order with
  | .portsFirst => s.freshArrival
  | .classFirst => State.freshArrival { s with gateReqs := s.gateReqs ++ s.arrivalAct p w s.ports }

/-- What an arrival hands. -/
def State.arrivalRequests (s : State) (p : Port) (w mark : Nat) (order : MeterOrder) : List GateReq :=
  match order with
  | .portsFirst => s.crossings p w mark ++ s.arrivalAct p w (s.arrivalPorts p w)
  | .classFirst => s.arrivalAct p w s.ports ++ s.crossings p w mark

theorem arrivalMark_fresh (s : State) (p : Port) (w : Nat) (order : MeterOrder) :
    ∀ q ∈ s.gateReqs, q.arrival ≠ some (s.arrivalMark p w order) := by
  cases order with
  | portsFirst => exact freshArrival_fresh s
  | classFirst =>
    exact fun q hq => freshArrival_fresh { s with gateReqs := s.gateReqs ++ s.arrivalAct p w s.ports } q
      (List.mem_append_left _ hq)

/-- The arrival of a flood copy at both meters, as one change. -/
theorem arrival_eq (s : State) (order : MeterOrder) (p : Port) (w : Nat) : s.arrival order p w =
    s.arrived (s.arrivalTimer p w) (s.arrivalPorts p w) (s.arrivalClass p w)
      (s.gateReqs ++ s.arrivalRequests p w (s.arrivalMark p w order) order) (s.arrivalFlags p w).cps := by
  cases order with
  | portsFirst =>
    have mode : (s.arrivalPorts p w)[p].mode = (s.port p).mode := by
      rw [State.arrivalPorts, getElem_set_fin, if_pos rfl]
      rfl
    refine (congrArg (State.classArrival · p w) (portArrival_eq s p w)).trans ((classArrival_after mode w _).trans ?_)
    rw [List.append_assoc]
    rfl
  | classFirst =>
    refine (congrArg (State.portArrival · p w) (classArrival_eq s p w)).trans ((portArrival_arrived s _ _ _ _ p w).trans ?_)
    rw [List.append_assoc]
    rfl

set_option Elab.async false in
/-- The crossings of an arrival, in ascending order with its mark (R41 to R43). -/
theorem arrivalCrossings_eq (p : Port) (m : MeterProfile) (r : PortRec) (level mark : Nat) :
    arrivalCrossings p m r level mark =
      (if r.calm = true ∧ m.r ≤ level then [⟨some p, .rise, some mark⟩]
        else if r.calm = false ∧ level < m.r then [⟨some p, .downward, some mark⟩] else [])
      ++ (if decide (r.level < m.w ∧ m.w ≤ level) then [⟨some p, .watch, some mark⟩] else [])
      ++ (if decide (r.level < m.c ∧ m.c ≤ level) then [⟨some p, .cause .stormCut none (some level) none none, some mark⟩] else [])
      ++ (if decide (r.level < m.s ∧ m.s ≤ level) then
          [⟨some p, .cause .stormShut none (some level) none none, some mark⟩] else []) := by
  have calms : (calmChange p r.calm (decide (level < m.r))).map (fun q => { q with arrival := some mark }) =
      if r.calm = true ∧ m.r ≤ level then [⟨some p, .rise, some mark⟩]
      else if r.calm = false ∧ level < m.r then [⟨some p, .downward, some mark⟩] else [] := by
    by_cases h : level < m.r
    · have h' : ¬m.r ≤ level := Nat.not_le.mpr h
      cases r.calm <;> simp [calmChange, h, h']
    · have h' : m.r ≤ level := Nat.not_lt.mp h
      cases r.calm <;> simp [calmChange, h, h']
  have one (c : Bool) (k : GateReqKind) : (if c then [(⟨some p, k, none⟩ : GateReq)] else []).map
      (fun q => { q with arrival := some mark }) = if c then [⟨some p, k, some mark⟩] else [] := by
    cases c <;> rfl
  rw [arrivalCrossings, List.map_append, List.map_append, List.map_append, calms, one, one, one]
  rfl

/-! ### The receive checks (R18 to R20) -/

theorem bit7_iff (b : Byte) : b.getLsbD 7 = true ↔ 128 ≤ b.toNat := by
  have h : b.getLsbD 7 = b.msb := (BitVec.msb_eq_getLsbD_last b).symm
  rw [h, BitVec.msb_eq_decide, decide_eq_true_eq]

theorem bit0_iff (b : Byte) : b.getLsbD 0 = true ↔ b.toNat % 2 = 1 := by
  rw [BitVec.getLsbD, Nat.testBit_zero, decide_eq_true_eq]

theorem isGroup_iff (bytes : List Byte) : isGroup bytes = true ↔ (bytes.getD 0 0).toNat % 2 = 1 := bit0_iff _

/-- A frame with a bad FCS or a bad length (R18). -/
def FrameBad (f : TapFrame) : Prop := f.fcsGood = false ∨ f.length < 20 ∨ 16383 < f.length

/-- A frame with another tag type or a DIRECTED tag (R19). -/
def TagBad (pr : Profile) (f : TapFrame) : Prop :=
  headWord f.bytes 12 ≠ pr.tapTagType.toNat ∨ 128 ≤ (f.bytes.getD 14 0).toNat

/-- The four checks in their order (R18 to R20). -/
theorem receiveCheck_bad {pr : Profile} {t : TapId} {f : TapFrame} (h : FrameBad f) : receiveCheck pr t f = .tapError := by
  refine if_pos ?_
  rw [Bool.or_eq_true, Bool.not_eq_true', decide_eq_true_eq]
  exact h

set_option Elab.async false in
theorem receiveCheck_tag {pr : Profile} {t : TapId} {f : TapFrame} (h : ¬FrameBad f) (ht : TagBad pr f) :
    receiveCheck pr t f = .tagError := by
  refine (if_neg ?_).trans (if_pos ?_)
  · rw [Bool.or_eq_true, Bool.not_eq_true', decide_eq_true_eq]
    exact h
  · rw [Bool.or_eq_true, decide_eq_true_eq, tagType, wordAt_eq, tagDirected, bit7_iff]
    exact ht

theorem receiveCheck_passed {pr : Profile} {t : TapId} {f : TapFrame} (h : ¬FrameBad f) (ht : ¬TagBad pr f) :
    receiveCheck pr t f = match pr.mapFabric t (tagPort f.bytes) with
      | none => .unmapped
      | some p => if isGroup f.bytes then .accepted p else .nonFlood := by
  refine (if_neg ?_).trans (if_neg ?_)
  · rw [Bool.or_eq_true, Bool.not_eq_true', decide_eq_true_eq]
    exact h
  · rw [Bool.or_eq_true, decide_eq_true_eq, tagType, wordAt_eq, tagDirected, bit7_iff]
    exact ht

theorem exec_tapFrame {s : State} (hOn : On s) {t : TapId} (hup : (s.taps.get t).linkUp = true) (f : TapFrame)
    (order : MeterOrder) : exec (.tapFrame t f order) s = .next (match receiveCheck s.profile t f with
      | .tapError => s.census .tapErrors none 1
      | .tagError => s.census .tagErrors none 1
      | .unmapped => s.updTap t fun x => { x with unmapped := min (x.unmapped + 1) 65535 }
      | .nonFlood => s.updTap t fun x => { x with nonFlood := min (x.nonFlood + 1) 65535 }
      | .accepted p => s.accept t f order p) :=
  (powered_next hOn _).trans (congrArg Host.Outcome.next (if_pos hup))

/-! ### The slot of a frame (R23, R24, R184) -/

/-- The head bytes of a slot: the frame's with its tag taken out, zeros beyond its fabric length (R23, R184). -/
theorem headBytes_getD {f : TapFrame} (hw : TapFrame.wf f = true) (hl : 20 ≤ f.length) {i : Nat} (hi : i < 96) :
    (headBytes f).getD i 0 =
      if f.length - 4 ≤ i then 0 else if i < 12 then f.bytes.getD i 0 else f.bytes.getD (i + 4) 0 := by
  have length : f.bytes.length = min f.length 100 := of_decide_eq_true hw
  have byte : (headBytes f).getD i 0 = ((f.bytes.take 12 ++ f.bytes.drop 16).take (f.length - 4)).getD i 0 := by
    simp [headBytes, bytesAt, hi]
  rw [byte, List.getD_eq_getElem?_getD, List.getElem?_take]
  by_cases h : f.length - 4 ≤ i
  · rw [if_pos h, if_neg (Nat.not_lt.mpr h)]
    rfl
  · have twelve : (f.bytes.take 12).length = 12 := by rw [List.length_take]; omega
    rw [if_neg h, if_pos (Nat.lt_of_not_le h), List.getElem?_append, twelve]
    by_cases h12 : i < 12
    · rw [if_pos h12, if_pos h12, List.getElem?_take, if_pos h12, List.getD_eq_getElem?_getD]
    · have shift : 16 + (i - 12) = i + 4 := by omega
      rw [if_neg h12, if_neg h12, List.getElem?_drop, shift, List.getD_eq_getElem?_getD]

set_option Elab.async false in
/-- A frame offered once it has arrived: stored, or counted where its FIFO is full (R23, R24). -/
theorem offer_arrived (s : State) (counters : Vector Counter 4) (timer : Option Nat) (ports : Vector PortRec 48) (level : Nat)
    (reqs : List GateReq) (cps : PerCp CtlRec) (t : TapId) (f : TapFrame) (p : Port) :
    (State.arrived { s with counters := counters } timer ports level reqs cps).offer t f p =
      (let full := decide (16 ≤ (s.taps.get t).fifo.length)
       { s with
        counters := (if full then State.census { s with counters := counters } .unanalysed (some p) 1
          else { s with counters := counters }).counters
        ports := ports, classLevel := level, classTimer := timer, gateReqs := reqs
        cps := (if full then State.raiseAttached { s with cps := cps } .tapPressure else { s with cps := cps }).cps
        taps := if full then s.taps else s.taps.set t { s.taps.get t with
          fifo := (s.taps.get t).fifo ++ [⟨headBytes f, f.length - 4, p, s.msTime⟩] } }) := by
  dsimp only
  by_cases h : 16 ≤ (s.taps.get t).fifo.length
  · rw [decide_eq_true h]
    exact if_neg (Nat.not_lt.mpr h)
  · rw [decide_eq_false h]
    exact if_pos (Nat.lt_of_not_le h)

/-- Settles O35. -/
theorem tapFramesAreCheckedMeteredAndStored : Obligations.TapFramesAreCheckedMeteredAndStored := by
  refine ⟨fun s t f order p hOn => ?_, fun f i hw hl hi => ⟨headBytes_length f, headBytes_getD hw hl hi⟩⟩
  intro x b frameBad tagBad port group passed flood w counted r m level reached crossings metered class' warned acts judged
    act full flags
  have run (hup : x.linkUp = true) := exec_tapFrame hOn hup f order
  have ran (hp : passed) {q : Port} (hm : s.profile.mapFabric t port = some q) : receiveCheck s.profile t f =
      if isGroup f.bytes then .accepted q else .nonFlood := by
    refine (receiveCheck_passed hp.2.1 hp.2.2).trans ?_
    have hm' : s.profile.mapFabric t (tagPort f.bytes) = some q := hm
    rw [hm']
  have accepted (hf : flood) : exec (.tapFrame t f order) s = .next (s.accept t f order p) := by
    obtain ⟨hp, hm, hg⟩ := hf
    rw [run hp.1, ran hp hm, if_pos ((isGroup_iff _).mpr hg)]
  refine ⟨fun hdown => ?_, fun hup hbad => ?_, fun hup hgood hbad => ?_, fun hp hm => ?_, fun hp hm hg => ?_,
    fun hf hr => ?_, fun hf hr => ?_⟩
  · refine (powered_next hOn _).trans ?_
    rw [if_neg fun hup => Bool.false_ne_true (hdown.symm.trans hup)]
  · rw [run hup, receiveCheck_bad hbad]
  · rw [run hup, receiveCheck_tag hgood hbad]
  · have hm' : s.profile.mapFabric t (tagPort f.bytes) = none := hm
    rw [run hp.1, receiveCheck_passed hp.2.1 hp.2.2, hm']
    rfl
  · rw [run hp.1, ran hp hm, if_neg fun h => hg ((isGroup_iff _).mp h)]
    rfl
  · rw [accepted hf]
    exact congrArg Host.Outcome.next (if_neg (by rw [hr]; exact Bool.false_ne_true))
  · refine ⟨counted.arrivalMark p w order, arrivalMark_fresh counted p w order, ?_⟩
    have offered : s.accept t f order p = (counted.arrival order p w).offer t f p := if_pos hr
    have warns : counted.arrivalWarns p w = warned := rfl
    have flagged : (counted.arrivalFlags p w).cps = flags.cps := by
      rw [State.arrivalFlags, warns]
      dsimp only [flags]
      generalize warned = b
      cases b <;> rfl
    have flags' : (if full then State.raiseAttached { s with cps := flags.cps } .tapPressure
        else { s with cps := flags.cps }).cps = (if full then flags.raiseAttached .tapPressure else flags).cps := by
      dsimp only [flags]
      generalize warned = b
      generalize full = c
      cases b <;> cases c <;> rfl
    have crossed (mark : Nat) : counted.crossings p w mark = crossings mark := arrivalCrossings_eq p m r level mark
    have acted (ports : Vector PortRec 48) : counted.arrivalAct p w ports =
        if acts then [classRequest { s with classLevel := class', ports := ports }] else [] :=
      if_congr Iff.rfl (congrArg (fun q => [q]) (classRequest_congr rfl (fun _ => rfl) fun _ => rfl)) rfl
    have timed : counted.arrivalTimer p w = if acts then some s.profile.ti else s.classTimer := rfl
    have goal (reqs : List GateReq) (h : counted.arrivalRequests p w (counted.arrivalMark p w order) order = reqs) :
        exec (.tapFrame t f order) s = .next { s with
          counters := (if full then counted.census .unanalysed (some p) 1 else counted).counters
          ports := metered
          classLevel := class'
          classTimer := if acts then some s.profile.ti else s.classTimer
          gateReqs := s.gateReqs ++ reqs
          cps := (if full then flags.raiseAttached .tapPressure else flags).cps
          taps := if full then s.taps else
            s.taps.set t { x with fifo := x.fifo ++ [⟨headBytes f, f.length - 4, p, s.msTime⟩] } } := by
      rw [accepted hf, offered, arrival_eq, flagged, h, timed, ← flags']
      exact congrArg Host.Outcome.next (offer_arrived s counted.counters _ metered class' _ flags.cps t f p)
    cases order with
    | portsFirst => exact goal _ (congrArg₂ _ (crossed _) (acted metered))
    | classFirst => exact goal _ (congrArg₂ _ (acted s.ports) (crossed _))

end Sys2Proof.Machine
end

section
/-! PROOF. The echo unit: fingerprints, the fingerprint table and the evidence that a frame makes (R97 to R109). -/

namespace Sys2Proof.Machine

open Sys2Proof.Spec

/-! ### Fingerprints (R97, R98) -/

/-- The bits of a head in the order in which the fingerprint register takes them: each byte's least significant first. -/
def headBit (head : List Byte) (i : Nat) : Bool := (head.getD (i / 8) 0).getLsbD (i % 8)

/-- The fingerprint register after some bits of a head (R97). -/
def fpRegister (head : List Byte) (n : Nat) : BitVec 32 :=
  (List.range n).foldl (fun r i => fpBit r (headBit head i)) 0xFFFFFFFF

theorem fpRegister_succ (head : List Byte) (n : Nat) : fpRegister head (n + 1) = fpBit (fpRegister head n) (headBit head n) := by
  rw [fpRegister, List.range_succ, List.foldl_append]
  rfl

/-- A byte is its eight bits. -/
theorem fpRegister_byte (head : List Byte) (k : Nat) :
    fpRegister head (k * 8 + 8) = fpByte (fpRegister head (k * 8)) (head.getD k 0) := by
  rw [fpRegister, List.range_add, List.foldl_append, List.foldl_map]
  refine List.foldl_ext _ _ _ fun r i hi => ?_
  have hi : i < 8 := List.mem_range.mp hi
  have byte : (k * 8 + i) / 8 = k := by omega
  have bit : (k * 8 + i) % 8 = i := by omega
  rw [headBit, byte, bit]

theorem fpRegister_bytes (head : List Byte) (k : Nat) :
    (bytesAt head 0 k).foldl fpByte 0xFFFFFFFF = fpRegister head (k * 8) := by
  induction k with
  | zero => rfl
  | succ k ih =>
    have more : bytesAt head 0 (k + 1) = bytesAt head 0 k ++ [head.getD k 0] := by simp [bytesAt, List.range_succ]
    rw [more, List.foldl_append, ih, Nat.succ_mul, fpRegister_byte]
    rfl

theorem fpTag_eq (fp : BitVec 32) : fpTag fp = (fp >>> 8).setWidth 24 := by
  apply BitVec.eq_of_toNat_eq
  simp [fpTag]

/-! ### The places of a set (R99, R102) -/

theorem mem_setPlaces {set place : Nat} : place ∈ setPlaces set ↔ ∃ way : Fin 4, place = set * 4 + way.val := by
  have places : setPlaces set = (List.finRange 4).map fun way => set * 4 + way.val := rfl
  rw [places, List.mem_map]
  simp [eq_comm]

set_option Elab.async false in
theorem setPlaces_rising (set : Nat) : (setPlaces set).Pairwise (· < ·) := by
  simp [setPlaces]

/-- The first of rising places that has a property. -/
theorem find_first {xs : List Nat} (h : xs.Pairwise (· < ·)) {may : Nat → Bool} {x : Nat} (hx : x ∈ xs) (hm : may x = true)
    (hf : ∀ y ∈ xs, y < x → may y = false) : xs.find? may = some x := by
  induction xs with
  | nil => cases hx
  | cons y ys ih =>
    obtain ⟨hy, hys⟩ := List.pairwise_cons.mp h
    rcases List.mem_cons.mp hx with rfl | hx
    · rw [List.find?_cons, hm]
    · rw [List.find?_cons, hf y List.mem_cons_self (hy x hx)]
      exact ih hys hx fun z hz => hf z (List.mem_cons_of_mem y hz)

/-- A place holds a live entry of a tag. -/
def State.holds (s : State) (tag : BitVec 24) (place : Nat) : Bool :=
  match placeGet s.table place with
  | none => false
  | some e => s.live e && decide (e.tag = tag)

theorem holds_iff (s : State) (tag : BitVec 24) (place : Nat) :
    s.holds tag place = true ↔ ∃ e, placeGet s.table place = some e ∧ s.live e = true ∧ e.tag = tag := by
  unfold State.holds
  cases placeGet s.table place with
  | none => simp
  | some e => simp

/-- The live match of a set is the entry at the first place that holds one. -/
theorem liveMatch_eq (s : State) (set : Nat) (tag : BitVec 24) : s.liveMatch set tag =
    ((setPlaces set).find? (s.holds tag)).bind fun place => (placeGet s.table place).map fun e => (place, e) := by
  unfold State.liveMatch
  induction setPlaces set with
  | nil => rfl
  | cons k ks ih =>
    rw [List.findSome?_cons, List.find?_cons, ih]
    unfold State.holds
    cases hk : placeGet s.table k with
    | none => rfl
    | some e =>
      dsimp only
      cases s.live e && decide (e.tag = tag) with
      | true => simp [hk]
      | false => rfl

theorem liveMatch_first {s : State} {set : Nat} {tag : BitVec 24} {way : Fin 4} {e : FpEntry}
    (he : placeGet s.table (set * 4 + way.val) = some e) (hl : s.live e = true) (ht : e.tag = tag)
    (hf : ∀ v < way, ¬s.holds tag (set * 4 + v.val) = true) :
    s.liveMatch set tag = some (set * 4 + way.val, e) := by
  have first : (setPlaces set).find? (s.holds tag) = some (set * 4 + way.val) := by
    refine find_first (setPlaces_rising set) (mem_setPlaces.mpr ⟨way, rfl⟩) ((holds_iff ..).mpr ⟨e, he, hl, ht⟩) ?_
    intro y hy hlt
    obtain ⟨v, rfl⟩ := mem_setPlaces.mp hy
    exact Bool.eq_false_iff.mpr (hf v (Fin.lt_def.mpr (by omega)))
  rw [liveMatch_eq, first, Option.bind_some, he]
  rfl

theorem liveMatch_none {s : State} {set : Nat} {tag : BitVec 24} (h : ∀ way : Fin 4, ¬s.holds tag (set * 4 + way.val) = true) :
    s.liveMatch set tag = none := by
  have none : (setPlaces set).find? (s.holds tag) = none := List.find?_eq_none.mpr fun y hy => by
    obtain ⟨v, rfl⟩ := mem_setPlaces.mp hy
    exact h v
  rw [liveMatch_eq, none]
  rfl

set_option Elab.async false in
/-- The search for the greatest age gives the first place of it. -/
theorem foldl_oldest (age : Nat → Nat) {b w : Nat} {xs : List Nat} (hrising : (b :: xs).Pairwise (· < ·)) (hw : w ∈ b :: xs)
    (h : ∀ y ∈ b :: xs, age y < age w ∨ (age y = age w ∧ w ≤ y)) :
    xs.foldl (fun best place => if age best < age place then place else best) b = w := by
  induction xs generalizing b with
  | nil => exact (List.mem_singleton.mp hw).symm
  | cons y ys ih =>
    obtain ⟨hb, hys⟩ := List.pairwise_cons.mp hrising
    have hby : b < y := hb y List.mem_cons_self
    have hbw := h b List.mem_cons_self
    have hyw := h y (List.mem_cons_of_mem b List.mem_cons_self)
    have rest : ∀ z ∈ ys, age z < age w ∨ (age z = age w ∧ w ≤ z) := fun z hz =>
      h z (List.mem_cons_of_mem b (List.mem_cons_of_mem y hz))
    rw [List.foldl_cons]
    split
    · next hlt =>
      refine ih hys ((List.mem_cons.mp hw).resolve_left fun hwb => ?_) fun z hz => ?_
      · subst hwb
        omega
      · exact (List.mem_cons.mp hz).elim (fun hzy => hzy ▸ hyw) (rest z)
    · next hle =>
      have hys' : (b :: ys).Pairwise (· < ·) :=
        List.pairwise_cons.mpr ⟨fun z hz => hb z (List.mem_cons_of_mem y hz), (List.pairwise_cons.mp hys).2⟩
      have hwy : w ≠ y := fun hwy => by
        subst hwy
        omega
      refine ih hys' ?_ fun z hz => ?_
      · exact (List.mem_cons.mp hw).elim (fun hwb => hwb ▸ List.mem_cons_self) fun hm =>
          List.mem_cons_of_mem b ((List.mem_cons.mp hm).resolve_left hwy)
      · exact (List.mem_cons.mp hz).elim (fun hzb => hzb ▸ hbw) (rest z)

theorem oldestPlace_eq {s : State} {set : Nat} {way : Fin 4}
    (h : ∀ v : Fin 4, s.placeAge (set * 4 + v.val) < s.placeAge (set * 4 + way.val)
      ∨ (s.placeAge (set * 4 + v.val) = s.placeAge (set * 4 + way.val) ∧ way ≤ v)) :
    s.oldestPlace set = set * 4 + way.val := by
  have self : s.oldestPlace set = [set * 4 + 1, set * 4 + 2, set * 4 + 3].foldl
      (fun best place => if s.placeAge best < s.placeAge place then place else best) (set * 4) := by
    unfold State.oldestPlace setPlaces
    rw [List.foldl_cons, ite_self]
  rw [self]
  refine foldl_oldest s.placeAge (setPlaces_rising set) (mem_setPlaces.mpr ⟨way, rfl⟩) fun y hy => ?_
  obtain ⟨v, rfl⟩ := mem_setPlaces.mp hy
  exact (h v).imp_right fun ⟨he, hle⟩ => ⟨he, Nat.add_le_add_left hle _⟩

theorem placeOpen_iff (s : State) (place : Nat) :
    s.placeOpen place = true ↔ ∀ e, placeGet s.table place = some e → ¬s.live e = true := by
  unfold State.placeOpen
  cases placeGet s.table place with
  | none => simp
  | some e => simp

theorem newPlace_open {s : State} {set : Nat} {way : Fin 4} (hw : s.placeOpen (set * 4 + way.val) = true)
    (hf : ∀ v < way, ¬s.placeOpen (set * 4 + v.val) = true) : s.newPlace set = (set * 4 + way.val, false) := by
  have first : (setPlaces set).find? s.placeOpen = some (set * 4 + way.val) := by
    refine find_first (setPlaces_rising set) (mem_setPlaces.mpr ⟨way, rfl⟩) hw ?_
    intro y hy hlt
    obtain ⟨v, rfl⟩ := mem_setPlaces.mp hy
    exact Bool.eq_false_iff.mpr (hf v (Fin.lt_def.mpr (by omega)))
  rw [State.newPlace, first]

theorem newPlace_full {s : State} {set : Nat} (h : ∀ way : Fin 4, ¬s.placeOpen (set * 4 + way.val) = true) :
    s.newPlace set = (s.oldestPlace set, true) := by
  have none : (setPlaces set).find? s.placeOpen = none := List.find?_eq_none.mpr fun y hy => by
    obtain ⟨v, rfl⟩ := mem_setPlaces.mp hy
    exact h v
  rw [State.newPlace, none]

/-! ### Evidence (R103, R104, R106, R108, R109) -/

set_option Elab.async false in
/-- A step up of a port's score, as one change. -/
theorem evidence_eq (s : State) (p : Port) (partner : Option Port) : s.evidence p partner =
    if (s.port p).mode = .pinned then s else
      { s with
        ports := s.ports.set p { s.port p with echoScore := min ((s.port p).echoScore + 1) 15 }
        gateReqs := s.gateReqs ++ (if (s.port p).echoScore = 0 then [⟨some p, .echoFromZero, none⟩] else [])
          ++ (if (s.port p).echoScore < s.profile.ne ∧ s.profile.ne ≤ min ((s.port p).echoScore + 1) 15 then
              [⟨some p, .cause .echo partner none none none, none⟩] else [])
        urgent := s.urgent ++ [⟨p, true⟩] } := by
  unfold State.evidence
  refine if_congr Iff.rfl rfl ?_
  dsimp only
  by_cases h0 : (s.port p).echoScore = 0
  · by_cases hn : (s.port p).echoScore < s.profile.ne ∧ s.profile.ne ≤ min ((s.port p).echoScore + 1) 15
    · rw [if_pos h0, if_pos h0, if_pos hn, if_pos hn]
      rfl
    · rw [if_pos h0, if_pos h0, if_neg hn, if_neg hn, List.append_nil]
      rfl
  · by_cases hn : (s.port p).echoScore < s.profile.ne ∧ s.profile.ne ≤ min ((s.port p).echoScore + 1) 15
    · rw [if_neg h0, if_neg h0, if_pos hn, if_pos hn, List.append_nil]
      rfl
    · rw [if_neg h0, if_neg h0, if_neg hn, if_neg hn, List.append_nil, List.append_nil]
      rfl

/-! ### A frame entered (R102 to R104) -/

/-- The state whose table has an entry put at a place. -/
def State.putting (s : State) (place : Nat) (e : FpEntry) : State := { s with table := placePut s.table place e }

theorem putting_at (s : State) (place : Nat) (e : FpEntry) : placeGet (s.putting place e).table place = some e
    ∧ ∀ k, k ≠ place → placeGet (s.putting place e).table k = placeGet s.table k :=
  ⟨placeGet_put_self .., fun _ hk => placeGet_put_other _ hk e⟩

theorem echoEnter_match {s : State} {x : Slot} {place : Nat} {e : FpEntry}
    (h : s.liveMatch (fpSet (fingerprint x.head)) (fpTag (fingerprint x.head)) = some (place, e)) : s.echoEnter x =
      if e.hasSeen x.ingress then
        if e.hits < 15 ∧ e.hits + 1 = s.profile.nr then
          (s.putting place (e.matched x.ingress x.arrival)).repeatEvidence x.ingress
        else s.putting place (e.matched x.ingress x.arrival)
      else (s.putting place (e.matched x.ingress x.arrival)).echoEvidence e.first x.ingress := by
  unfold State.echoEnter
  dsimp only
  rw [h]
  rfl

/-- The entry that a frame makes (R102). -/
def Slot.entry (x : Slot) : FpEntry :=
  ⟨fpTag (fingerprint x.head), x.ingress, x.arrival, x.arrival, 1, seenBit x.ingress⟩

theorem echoEnter_new {s : State} {x : Slot}
    (h : s.liveMatch (fpSet (fingerprint x.head)) (fpTag (fingerprint x.head)) = none) : s.echoEnter x =
      let place := s.newPlace (fpSet (fingerprint x.head))
      if place.2 then (s.putting place.1 x.entry).census .evictions (some x.ingress) 1 else s.putting place.1 x.entry := by
  unfold State.echoEnter
  dsimp only
  rw [h]
  rfl

/-- A step up of a port's score leaves the table. -/
theorem evidence_table (s : State) (p : Port) (partner : Option Port) : (s.evidence p partner).table = s.table :=
  (frame_evidence s p partner .table (notIn rfl)).1

set_option Elab.async false in
theorem echoEnter_match_table {s : State} {x : Slot} {place : Nat} {e : FpEntry}
    (h : s.liveMatch (fpSet (fingerprint x.head)) (fpTag (fingerprint x.head)) = some (place, e)) :
    { s with table := (s.echoEnter x).table } = s.putting place (e.matched x.ingress x.arrival) := by
  have table : (s.echoEnter x).table = (s.putting place (e.matched x.ingress x.arrival)).table := by
    rw [echoEnter_match h]
    split
    · split
      · exact evidence_table _ x.ingress none
      · rfl
    · exact (evidence_table ..).trans (evidence_table ..)
  rw [table]
  rfl

/-- Settles O47. -/
theorem framesAreEnteredInTheTable : Obligations.FramesAreEnteredInTheTable := by
  refine ⟨fun s x htable => ?_, fun s p partner => evidence_eq s p partner, fun head => ⟨fpRegister head, rfl,
    fun n _ => fpRegister_succ head n, ?_⟩⟩
  · intro fp q live at' tag matches' isOpen age put one
    have htag : fpTag fp = tag := fpTag_eq fp
    have live_iff (e : FpEntry) : s.live e = true ↔ live e := decide_eq_true_iff
    have holds (way : Fin 4) : s.holds tag (fpSet fp * 4 + way.val) = true ↔ ∃ e, matches' way e := by
      rw [holds_iff]
      exact exists_congr fun e => and_congr Iff.rfl (and_congr (live_iff e) Iff.rfl)
    have wf := (echoEnter_tableOk htable x).1
    refine ⟨fun way e hm hf => ?_, fun hnone => ?_⟩
    · intro e' t u
      obtain ⟨he, hl, ht⟩ := hm
      have hmatch : s.liveMatch (fpSet fp) (fpTag fp) = some (fpSet fp * 4 + way.val, e) := by
        rw [htag]
        exact liveMatch_first he ((live_iff e).mpr hl) ht fun v hv hh => (holds v).mp hh |>.elim (hf v hv)
      have hu : u = s.putting (fpSet fp * 4 + way.val) (e.matched q x.arrival) := echoEnter_match_table hmatch
      have ht : t = _ := echoEnter_match hmatch
      have table : t.table = u.table := rfl
      refine ⟨?_, wf, fun hs => ?_, fun hs hh hn => ?_, fun hs hh => ?_⟩
      · dsimp only [put]
        rw [table, hu]
        exact putting_at s _ _
      · rw [ht, if_neg (by rw [hs]; exact Bool.false_ne_true), hu]
        rfl
      · rw [ht, if_pos hs, if_pos ⟨hh, hn⟩, hu]
        rfl
      · rw [ht, if_pos hs, if_neg hh, hu]
    · intro t
      have hmatch : s.liveMatch (fpSet fp) (fpTag fp) = none := by
        rw [htag]
        exact liveMatch_none fun way hh => (holds way).mp hh |>.elim (hnone way)
      have open_iff (way : Fin 4) : s.placeOpen (fpSet fp * 4 + way.val) = true ↔ isOpen way := by
        rw [placeOpen_iff]
        exact forall_congr' fun e => imp_congr Iff.rfl (not_congr (live_iff e))
      have ht : t = _ := echoEnter_new hmatch
      have entry : x.entry = one := congrArg (fun g => (⟨g, q, x.arrival, x.arrival, 1, seenBit q⟩ : FpEntry)) htag
      refine ⟨wf, fun way hw hf => ?_, fun hfull way hage => ?_⟩
      · have new := newPlace_open ((open_iff way).mpr hw) fun v hv ho => hf v hv ((open_iff v).mp ho)
        have put_eq : t = s.putting (fpSet fp * 4 + way.val) one := by
          rw [ht, new, entry]
          rfl
        rw [put_eq]
        exact ⟨putting_at s _ _, rfl⟩
      · have age_eq (v : Fin 4) : s.placeAge (fpSet fp * 4 + v.val) = age v := by
          unfold State.placeAge
          change _ = ((placeGet s.table (fpSet fp * 4 + v.val)).map fun e => (s.msTime - e.firstTime).toNat).getD 0
          cases placeGet s.table (fpSet fp * 4 + v.val) <;> rfl
        have oldest : s.oldestPlace (fpSet fp) = fpSet fp * 4 + way.val :=
          oldestPlace_eq fun v => by rw [age_eq, age_eq]; exact hage v
        have new := newPlace_full fun v ho => hfull v ((open_iff v).mp ho)
        have put_eq : t = (s.putting (fpSet fp * 4 + way.val) one).census .evictions (some q) 1 := by
          rw [ht, new, oldest, entry]
          rfl
        rw [put_eq]
        exact ⟨putting_at s _ _, rfl⟩
  · rw [fingerprint, fpRegister_bytes]

end Sys2Proof.Machine
end

section
/-! PROOF. WRITE_PROFILE: a run of fields, field by field, and the write of one field of a window (R10, R13, R14, R16,
R171). -/

namespace Sys2Proof.Machine

open Sys2Proof.Spec

/-! ### A run and its values (R171) -/

theorem fieldRun_cons {start count : Nat} {f : FieldId} (hf : fieldOrder[start]? = some f) (hc : 1 ≤ count) :
    fieldRun start count = f :: fieldRun (start + 1) (count - 1) := by
  obtain ⟨n, rfl⟩ : ∃ n, count = n + 1 := ⟨count - 1, by omega⟩
  have drop : fieldOrder.drop start = f :: fieldOrder.drop (start + 1) := by
    obtain ⟨h, rfl⟩ := List.getElem?_eq_some_iff.mp hf
    exact List.drop_eq_getElem_cons h
  rw [fieldRun, drop, List.take_succ_cons]
  rfl

theorem fieldRun_none (start : Nat) : fieldRun start 0 = [] := rfl

/-- Bytes of the right number spell one value for each field of a run. -/
theorem splitValues_exact (fs : List FieldId) : ∀ bs : List Byte, bs.length = runWidth fs →
    ∃ vs, splitValues fs bs = some vs := by
  induction fs with
  | nil => exact fun bs _ => ⟨[], rfl⟩
  | cons f fs ih =>
    intro bs h
    have width : bs.length = f.width + runWidth fs := h
    obtain ⟨vs, hvs⟩ := ih (bs.drop f.width) (by rw [List.length_drop]; omega)
    refine ⟨(f, beNat (bs.take f.width)) :: vs, ?_⟩
    rw [splitValues, if_neg (by omega), hvs]
    rfl

theorem splitValues_cons {f : FieldId} {fs : List FieldId} {one more : List Byte} (h : one.length = f.width) :
    splitValues (f :: fs) (one ++ more) = (splitValues fs more).map fun vs => (f, beNat one) :: vs := by
  rw [splitValues, if_neg (by rw [List.length_append]; omega), ← h, List.drop_left, List.take_left]

set_option Elab.async false in
/-- A WRITE_PROFILE that no check refuses writes its run (R171). -/
theorem exec_writeRun {s : State} (hs : Listening s .cp0) (hready : s.store.condition = .ready) {start count : Nat}
    (hlo : 1 ≤ count) (hhi : start + count ≤ 118) {values : List Byte} {vs : List (FieldId × Nat)}
    (hlen : values.length = runWidth (fieldRun start count)) (hvs : splitValues (fieldRun start count) values = some vs)
    (hrun : (fieldRun start count).any FieldId.isWindow = true → s.running = false) :
    exec (.writeProfile .cp0 (BitVec.ofNat 8 start) (BitVec.ofNat 8 count) values) s =
      .next ((s.writeRun vs).1.answer .cp0 (if (s.writeRun vs).2 then .ok else .overlap) [] .fixed) := by
  have hstart : (BitVec.ofNat 8 start).toNat = start := toNat_byte (by omega)
  have hcount : (BitVec.ofNat 8 count).toNat = count := toNat_byte (by omega)
  have hrange : runInRange (BitVec.ofNat 8 start) (BitVec.ofNat 8 count) = true := by
    rw [runInRange, hstart, hcount]
    exact decide_eq_true ⟨by simp only [Config.profileFields]; omega, hlo, hhi⟩
  have hfields : writeFields (BitVec.ofNat 8 start) (BitVec.ofNat 8 count) = fieldRun start count := by
    rw [writeFields, hstart, hcount]
  have hbytes : valueBytes (BitVec.ofNat 8 start) (BitVec.ofNat 8 count) = values.length := by
    rw [valueBytes, if_pos hrange, hfields, hlen]
  have hbusy : s.storeBusy = false := by rw [State.storeBusy, hready]; rfl
  have hheld : (s.running && (fieldRun start count).any FieldId.isWindow) = false := by
    cases hw : (fieldRun start count).any FieldId.isWindow with
    | true => rw [hrun hw]; rfl
    | false => exact Bool.and_false _
  refine (if_neg (by omega)).trans ((command_runs hs.1 hs.2 ?_ _).trans ?_)
  · rw [hrange, hfields, hbusy, hheld]
    rfl
  · rw [hfields, hvs]

theorem writeRun_one (s : State) (f : FieldId) (v : Nat) : s.writeRun [(f, v)] =
    ((s.writeField f v).getD s, (s.writeField f v).isSome) := by
  unfold State.writeRun
  cases s.writeField f v <;> rfl

/-- A WRITE_PROFILE of one field, with its bytes. -/
theorem exec_writeOne {s : State} (hs : Listening s .cp0) (hready : s.store.condition = .ready) {i : Nat} {f : FieldId}
    (hf : fieldOrder[i]? = some f) {bytes : List Byte} (hlen : bytes.length = f.width)
    (hrun : f.isWindow = true → s.running = false) :
    exec (.writeProfile .cp0 (BitVec.ofNat 8 i) 1 bytes) s = .next (match s.writeField f (beNat bytes) with
      | some t => ok t .cp0
      | none => refuse s .cp0 .overlap) := by
  have hi : i < 118 := (List.getElem?_eq_some_iff.mp hf).1
  have run : fieldRun i 1 = [f] := fieldRun_cons hf (Nat.le_refl 1)
  have width : bytes.length = runWidth (fieldRun i 1) := by rw [run, hlen]; rfl
  have split : splitValues (fieldRun i 1) bytes = some [(f, beNat bytes)] := by
    rw [run]
    exact (congrArg (splitValues [f]) (List.append_nil bytes).symm).trans (splitValues_cons (fs := []) hlen)
  refine (exec_writeRun hs hready (Nat.le_refl 1) hi width split fun hw => hrun ?_).trans ?_
  · rw [run] at hw
    simpa using hw
  · rw [writeRun_one]
    cases s.writeField f (beNat bytes) <;> rfl

/-! ### Runs written field by field (R13, R171) -/

/-- A transaction of control port 0 that stands between two writes: no write looks at it. -/
def between (c : CtlRec) : CtlRec := { c with phase := .receiving, status := some .ok, response := [], answer := .fixed }

theorem freeRead_between (s : State) (yes : Bool) (c1 : CtlRec) :
    (State.freeRead { s.updCtl .cp0 between with
      profile := { s.profile with cp1Attached := yes }, cps := ⟨between s.cps.cp0, c1⟩ }) =
      (State.freeRead { s with
        profile := { s.profile with cp1Attached := yes }, cps := ⟨s.cps.cp0, c1⟩ }).updCtl .cp0 between := rfl

set_option Elab.async false in
theorem setAttached_between (s : State) (yes : Bool) :
    (s.updCtl .cp0 between).setAttached yes = (s.setAttached yes).updCtl .cp0 between := by
  unfold State.setAttached
  by_cases h : s.profile.cp1Attached = yes
  · exact (if_pos h).trans (congrArg (State.updCtl · .cp0 between) (if_pos h)).symm
  · exact (if_neg h).trans ((freeRead_between s yes _).trans (congrArg (State.updCtl · .cp0 between) (if_neg h)).symm)

theorem writeField_between (s : State) (f : FieldId) (v : Nat) :
    (s.updCtl .cp0 between).writeField f v = (s.writeField f v).map (·.updCtl .cp0 between) := by
  cases f with
  | window i part =>
    rw [State.writeField_window, State.writeField_window, Option.map_map]
    rfl
  | cp1Attached => exact congrArg some (setAttached_between s _)
  | _ => rfl

theorem writeRun_between (s : State) (vs : List (FieldId × Nat)) : (s.updCtl .cp0 between).writeRun vs =
    ((s.writeRun vs).1.updCtl .cp0 between, (s.writeRun vs).2) := by
  induction vs generalizing s with
  | nil => rfl
  | cons x rest ih =>
    obtain ⟨f, v⟩ := x
    rw [State.writeRun, writeField_between, State.writeRun]
    cases s.writeField f v with
    | none => rfl
    | some t => exact ih t

/-- The writes of a run leave the reset line, the store and the engine. -/
theorem writeField_frame {s t : State} {f : FieldId} {v : Nat} (h : s.writeField f v = some t) :
    t.resetLow = s.resetLow ∧ t.store = s.store ∧ t.running = s.running := by
  cases f with
  | window i part =>
    rw [State.writeField_window] at h
    obtain ⟨w, -, rfl⟩ := Option.map_eq_some_iff.mp h
    exact ⟨rfl, rfl, rfl⟩
  | cp1Attached =>
    rw [← Option.some.inj h]
    unfold State.setAttached
    split <;> exact ⟨rfl, rfl, rfl⟩
  | _ => rw [← Option.some.inj h]; exact ⟨rfl, rfl, rfl⟩

/-- Settles O51. -/
theorem runsAreWrittenFieldByField : Obligations.RunsAreWrittenFieldByField := by
  intro s u start count f one more hs hready hcount hrange hf hone hmore hheld hu
  have run : fieldRun start count = f :: fieldRun (start + 1) (count - 1) := fieldRun_cons hf (by omega)
  obtain ⟨vs, hvs⟩ := splitValues_exact _ more hmore
  have split : splitValues (fieldRun start count) (one ++ more) = some ((f, beNat one) :: vs) := by
    rw [run, splitValues_cons hone, hvs]
    rfl
  have width : (one ++ more).length = runWidth (fieldRun start count) := by
    rw [run, List.length_append, hone, hmore]
    rfl
  have heldOne : f.isWindow = true → s.running = false := fun hw => hheld (by rw [run, List.any_cons, hw]; rfl)
  rw [exec_writeRun hs hready (by omega) hrange width split hheld, State.writeRun]
  rw [exec_writeOne hs hready hf hone heldOne] at hu
  cases hw : s.writeField f (beNat one) with
  | none =>
    rw [hw] at hu
    obtain rfl := Host.Outcome.next.inj hu
    exact (if_pos rfl).symm
  | some t =>
    rw [hw] at hu
    obtain rfl := Host.Outcome.next.inj hu
    obtain ⟨hlow, hstore, hrunning⟩ := writeField_frame hw
    have status : ¬(ok t .cp0).cps.cp0.status = some .overlap := fun h => by cases h
    rw [if_neg status]
    have later : Listening (t.updCtl .cp0 between) .cp0 := ⟨hlow.trans hs.1, rfl⟩
    have heldRest : (fieldRun (start + 1) (count - 1)).any FieldId.isWindow = true → t.running = false := fun hw =>
      hrunning.trans (hheld (by rw [run, List.any_cons, hw, Bool.or_true]))
    refine Eq.trans ?_ (exec_writeRun later (congrArg StoreRec.condition hstore |>.trans hready) (by omega) (by omega) hmore hvs
      heldRest).symm
    rw [writeRun_between]
    rfl

/-! ### A window written (R10, R14, R16) -/

set_option Elab.async false in
theorem fieldOrder_window (i : Fin 4) (part : WindowPart) : fieldOrder[5 + 3 * i.val + (match part with
      | .first => 0
      | .count => 1
      | .guard => 2)]? = some (.window i part) := by
  fin_cases i <;> cases part <;> rfl

theorem beNat_one {v : Nat} (h : v < 256) : beNat [BitVec.ofNat 8 v] = v := by
  rw [beNat, List.foldl_cons, List.foldl_nil, toNat_byte h, Nat.zero_mul, Nat.zero_add]

/-- A window with one part written, clamped (R10). -/
theorem withPart_clamped (w : Window) (part : WindowPart) (v : Nat) : (w.withPart part v).clamped =
    (let first := min (if part = .first then v else w.first) 31
     let guard := min (if part = .guard then v else w.guard) 47
     ⟨first, min (min (if part = .count then v else w.count) 32) (min (32 - first) (48 - guard)), guard⟩) := by
  cases part <;> rfl

set_option Elab.async false in
theorem windowWritten_overlap {pr : Profile} {i : Fin 4} {part : WindowPart} {v : Nat} {w : Window}
    (hw : (pr.windows[i].withPart part v).clamped = w) {j : Fin 4} (hj : j ≠ i) (ho : w.overlaps pr.windows[j] = true) :
    pr.windowWritten i part v = none := by
  rw [Option.eq_none_iff_forall_ne_some]
  intro x hx
  obtain ⟨rfl, hfree⟩ := Profile.windowWritten_some.mp hx
  rw [← hw, hfree j hj] at ho
  cases ho

/-- Settles O50. -/
theorem windowsAreWrittenWhole : Obligations.WindowsAreWrittenWhole := by
  intro s i part v hs hready hheld hv index old first guard count shares pr c
  have written : (s.profile.windows[i].withPart part v).clamped = ⟨first, count, guard⟩ := withPart_clamped old part v
  have overlaps_iff (w : Window) : Window.overlaps ⟨first, count, guard⟩ w = true ↔ shares w := decide_eq_true_iff
  have run := exec_writeOne hs hready (fieldOrder_window i part) (bytes := [BitVec.ofNat 8 v]) rfl fun _ => hheld
  rw [beNat_one hv, State.writeField_window] at run
  refine ⟨fun ⟨j, hj, ho⟩ => run.trans ?_, fun hfree => run.trans ?_⟩
  · rw [windowWritten_overlap written hj ((overlaps_iff _).mpr ho)]
    rfl
  · have taken : s.profile.windowWritten i part v = some ⟨first, count, guard⟩ :=
      Profile.windowWritten_some.mpr ⟨written.symm, fun j hj => Bool.eq_false_iff.mpr fun ho => hfree j hj ((overlaps_iff _).mp ho)⟩
    rw [taken]
    rfl

end Sys2Proof.Machine
end

section
/-! PROOF. The values of the profile: what a field carries after a write, and the effects of the write of a field that is no
window (R37, R38, R55, R100, R111, R127 to R129, R151, R160, R167, R171, R189). -/

namespace Sys2Proof.Machine

open Sys2Proof.Spec

/-! ### Values as bytes (R185) -/

theorem foldl_beNat (bs : List Byte) (a : Nat) :
    bs.foldl (fun acc b => acc * 256 + b.toNat) a = a * 256 ^ bs.length + beNat bs := by
  induction bs generalizing a with
  | nil => simp [beNat]
  | cons b bs ih =>
    rw [beNat, List.foldl_cons, List.foldl_cons, ih, ih (0 * 256 + b.toNat), List.length_cons, pow_succ]
    ring

theorem beNat_cons (b : Byte) (bs : List Byte) : beNat (b :: bs) = b.toNat * 256 ^ bs.length + beNat bs := by
  rw [beNat, List.foldl_cons, foldl_beNat, Nat.zero_mul, Nat.zero_add]

theorem beNat_beBytes (n v : Nat) : beNat (beBytes n v) = v % 256 ^ n := by
  induction n with
  | zero => simp [beBytes, beNat, Nat.mod_one]
  | succ n ih =>
    have split : v % 256 ^ (n + 1) = v % 256 ^ n + 256 ^ n * (v / 256 ^ n % 256) := by rw [pow_succ, Nat.mod_mul]
    rw [beBytes, beNat_cons, ih, beBytes_length, BitVec.toNat_ofNat, split, Nat.mul_comm, Nat.add_comm]

theorem beNat_width {f : FieldId} {v : Nat} (h : v < 256 ^ f.width) : beNat (beBytes f.width v) = v := by
  rw [beNat_beBytes, Nat.mod_eq_of_lt h]

/-! ### The value of a field written (R171, R189) -/

set_option Elab.async false in
theorem lor_groupBit {v : Nat} (h : v < 2 ^ 48) :
    (BitVec.ofNat 48 v ||| groupBit).toNat = if v.testBit 40 then v else v + 2 ^ 40 := by
  split
  · next hb =>
    rw [BitVec.toNat_or, BitVec.toNat_ofNat, Nat.mod_eq_of_lt h]
    apply Nat.eq_of_testBit_eq
    intro i
    have bit : groupBit.toNat = 2 ^ 40 := rfl
    rw [Nat.testBit_or, bit, Nat.testBit_two_pow]
    by_cases hi : 40 = i
    · rw [← hi, hb, Bool.true_or]
    · rw [decide_eq_false hi, Bool.or_false]
  · next hb =>
    have clear : v / 2 ^ 40 % 2 = 0 := by
      rw [Nat.testBit_eq_decide_div_mod_eq, decide_eq_true_eq] at hb
      omega
    have disjoint : BitVec.ofNat 48 v &&& groupBit = 0#48 := by
      apply BitVec.eq_of_toNat_eq
      rw [BitVec.toNat_and, BitVec.toNat_ofNat, Nat.mod_eq_of_lt h]
      apply Nat.eq_of_testBit_eq
      intro i
      have bit : groupBit.toNat = 2 ^ 40 := rfl
      rw [Nat.testBit_and, bit, Nat.testBit_two_pow]
      by_cases hi : 40 = i
      · rw [← hi, Bool.eq_false_iff.mpr hb, Bool.false_and]
        rfl
      · rw [decide_eq_false hi, Bool.and_false]
        exact (Nat.zero_testBit i).symm
    rw [← BitVec.add_eq_or_of_and_eq_zero _ _ disjoint, BitVec.toNat_add, BitVec.toNat_ofNat, Nat.mod_eq_of_lt h]
    refine (Nat.mod_eq_of_lt ?_ : (v + 2 ^ 40) % 2 ^ 48 = v + 2 ^ 40)
    omega

theorem toByte_ofByte {v : Nat} (h : v < 256) : (PortByte.ofByte v).toByte = if v % 4 = 3 then v - 1 else v := by
  have mode : (modeOfCode (v % 4)).code = if v % 4 = 3 then 2 else v % 4 := by
    have codes : ∀ m : Fin 4, (modeOfCode m.val).code = if m.val = 3 then 2 else m.val := by decide
    exact codes ⟨v % 4, Nat.mod_lt _ (by decide)⟩
  have high : v / 64 % 4 * 64 + v / 4 % 16 * 4 = v - v % 4 := by omega
  have low : v % 4 ≤ v := Nat.mod_le v 4
  rw [PortByte.toByte, PortByte.ofByte, mode]
  dsimp only
  rw [high]
  split <;> omega

theorem code_actionOfCode (v : Nat) : (actionOfCode v).code = max 0 (min v 3) := by
  match v with
  | 0 => rfl
  | 1 => rfl
  | 2 => rfl
  | n + 3 => simp [actionOfCode, Action.code]

theorem attached_value (v : Nat) : (if decide (v ≠ 0) then 1 else 0) = max 0 (min v 1) := by
  by_cases h : v = 0
  · subst h
    rfl
  · rw [decide_eq_true h, if_pos rfl]
    omega

/-- The field written carries the value brought into its range (R171, R189). -/
theorem putRaw_value_self (pr : Profile) {f : FieldId} {v : Nat} (h : v < 256 ^ f.width) :
    (pr.putRaw f v).value f = inRange f v := by
  have small {hi : Nat} (hv : v ≤ hi) : clamp 0 hi v = v := by rw [clamp]; omega
  cases f with
  | chassisNumber => exact (BitVec.toNat_ofNat ..).trans (Nat.mod_eq_of_lt h)
  | chassisAddress => exact (BitVec.toNat_ofNat ..).trans (Nat.mod_eq_of_lt h)
  | groupAddress => exact lor_groupBit h
  | probeType => exact (BitVec.toNat_ofNat ..).trans (Nat.mod_eq_of_lt h)
  | tapTagType => exact (BitVec.toNat_ofNat ..).trans (Nat.mod_eq_of_lt h)
  | window i part =>
    have here : (pr.windows.set i (pr.windows[i].withPart part v))[i] = pr.windows[i].withPart part v := by
      rw [getElem_set_fin, if_pos rfl]
    cases part with
    | first => exact congrArg Window.first here
    | count => exact congrArg Window.count here
    | guard => exact congrArg Window.guard here
  | meter k part =>
    have word : clamp 0 65535 v = v := small (Nat.le_of_lt_succ h)
    have here : (pr.meters.set k (pr.meters[k].withPart part v))[k] = pr.meters[k].withPart part v := by
      rw [getElem_set_fin, if_pos rfl]
    cases part with
    | d => exact congrArg MeterProfile.d here
    | w => exact (congrArg MeterProfile.w here).trans word
    | c => exact (congrArg MeterProfile.c here).trans word
    | s => exact (congrArg MeterProfile.s here).trans word
    | r => exact (congrArg MeterProfile.r here).trans word
  | portByte p =>
    have here : (pr.portBytes.set p (PortByte.ofByte v))[p] = PortByte.ofByte v := by rw [getElem_set_fin, if_pos rfl]
    exact (congrArg PortByte.toByte here).trans (toByte_ofByte h)
  | dc => exact small (Nat.le_of_lt_succ h)
  | ladder c =>
    have here : (pr.ladder.set c (actionOfCode v))[c] = actionOfCode v := by rw [getElem_set_fin, if_pos rfl]
    exact (congrArg Action.code here).trans (code_actionOfCode v)
  | ledOn i =>
    have here (x : LedPattern) : (pr.leds.set i x)[i] = x := by rw [getElem_set_fin, if_pos rfl]
    exact congrArg LedPattern.on (here _)
  | ledOff i =>
    have here (x : LedPattern) : (pr.leds.set i x)[i] = x := by rw [getElem_set_fin, if_pos rfl]
    exact congrArg LedPattern.off (here _)
  | cp1Attached => exact attached_value v
  | _ => rfl

/-- The place in the profile of the part that a field belongs to; the two times of a pattern belong to one. -/
def FieldId.part : FieldId → Nat
  | .chassisNumber => 0
  | .chassisAddress => 1
  | .groupAddress => 2
  | .probeType => 3
  | .tapTagType => 4
  | .window _ _ => 5
  | .meter _ _ => 6
  | .portByte _ => 7
  | .dc => 8
  | .wc => 9
  | .cc => 10
  | .ti => 11
  | .ts => 12
  | .lp => 13
  | .listenLimit => 14
  | .tr => 15
  | .tg => 16
  | .hb => 17
  | .hmax => 18
  | .we => 19
  | .nr => 20
  | .ne => 21
  | .td => 22
  | .holdOff => 23
  | .tsil => 24
  | .ladder _ => 25
  | .ledOn _ => 26
  | .ledOff _ => 26
  | .cp1Attached => 27

/-- What a field of the part at a place can be. -/
def OfPart (g : FieldId) : Nat → Prop
  | 0 => .chassisNumber = g
  | 1 => .chassisAddress = g
  | 2 => .groupAddress = g
  | 3 => .probeType = g
  | 4 => .tapTagType = g
  | 5 => ∃ i part, .window i part = g
  | 6 => ∃ i part, .meter i part = g
  | 7 => ∃ p, .portByte p = g
  | 8 => .dc = g
  | 9 => .wc = g
  | 10 => .cc = g
  | 11 => .ti = g
  | 12 => .ts = g
  | 13 => .lp = g
  | 14 => .listenLimit = g
  | 15 => .tr = g
  | 16 => .tg = g
  | 17 => .hb = g
  | 18 => .hmax = g
  | 19 => .we = g
  | 20 => .nr = g
  | 21 => .ne = g
  | 22 => .td = g
  | 23 => .holdOff = g
  | 24 => .tsil = g
  | 25 => ∃ c, .ladder c = g
  | 26 => (∃ i, .ledOn i = g) ∨ ∃ i, .ledOff i = g
  | _ => .cp1Attached = g

set_option Elab.async false in
theorem ofPart (g : FieldId) : OfPart g g.part := by
  cases g with
  | window i part => exact ⟨i, part, rfl⟩
  | meter i part => exact ⟨i, part, rfl⟩
  | portByte p => exact ⟨p, rfl⟩
  | ladder c => exact ⟨c, rfl⟩
  | ledOn i => exact .inl ⟨i, rfl⟩
  | ledOff i => exact .inr ⟨i, rfl⟩
  | _ => rfl

/-- A profile with the part at one place taken from another. -/
def Profile.over (x y : Profile) (n : Nat) : Profile where
  chassisNumber := if 0 = n then y.chassisNumber else x.chassisNumber
  chassisAddress := if 1 = n then y.chassisAddress else x.chassisAddress
  groupAddress := if 2 = n then y.groupAddress else x.groupAddress
  probeType := if 3 = n then y.probeType else x.probeType
  tapTagType := if 4 = n then y.tapTagType else x.tapTagType
  windows := if 5 = n then y.windows else x.windows
  meters := if 6 = n then y.meters else x.meters
  portBytes := if 7 = n then y.portBytes else x.portBytes
  dc := if 8 = n then y.dc else x.dc
  wc := if 9 = n then y.wc else x.wc
  cc := if 10 = n then y.cc else x.cc
  ti := if 11 = n then y.ti else x.ti
  ts := if 12 = n then y.ts else x.ts
  lp := if 13 = n then y.lp else x.lp
  listenLimit := if 14 = n then y.listenLimit else x.listenLimit
  tr := if 15 = n then y.tr else x.tr
  tg := if 16 = n then y.tg else x.tg
  hb := if 17 = n then y.hb else x.hb
  hmax := if 18 = n then y.hmax else x.hmax
  we := if 19 = n then y.we else x.we
  nr := if 20 = n then y.nr else x.nr
  ne := if 21 = n then y.ne else x.ne
  td := if 22 = n then y.td else x.td
  holdOff := if 23 = n then y.holdOff else x.holdOff
  tsil := if 24 = n then y.tsil else x.tsil
  ladder := if 25 = n then y.ladder else x.ladder
  leds := if 26 = n then y.leds else x.leds
  cp1Attached := if 27 = n then y.cp1Attached else x.cp1Attached

/-- A field put changes the part it belongs to. -/
theorem putRaw_over (pr : Profile) (f : FieldId) (v : Nat) : pr.putRaw f v = pr.over (pr.putRaw f v) f.part := by
  cases f <;> rfl

/-- A field keeps its value where another part is taken from elsewhere. -/
theorem over_value (x y : Profile) {n : Nat} {g : FieldId} (h : g.part ≠ n) : (x.over y n).value g = x.value g := by
  cases g with
  | window i part =>
    have kept : (x.over y n).windows = x.windows := if_neg h
    cases part with
    | first => exact congrArg (fun ws : Vector Window 4 => ws[i].first) kept
    | count => exact congrArg (fun ws : Vector Window 4 => ws[i].count) kept
    | guard => exact congrArg (fun ws : Vector Window 4 => ws[i].guard) kept
  | meter i part =>
    have kept : (x.over y n).meters = x.meters := if_neg h
    cases part with
    | d => exact congrArg (fun ms : Vector MeterProfile 4 => ms[i].d) kept
    | w => exact congrArg (fun ms : Vector MeterProfile 4 => ms[i].w) kept
    | c => exact congrArg (fun ms : Vector MeterProfile 4 => ms[i].c) kept
    | s => exact congrArg (fun ms : Vector MeterProfile 4 => ms[i].s) kept
    | r => exact congrArg (fun ms : Vector MeterProfile 4 => ms[i].r) kept
  | chassisNumber =>
    have kept : (x.over y n).chassisNumber = x.chassisNumber := if_neg h
    exact congrArg BitVec.toNat kept
  | chassisAddress =>
    have kept : (x.over y n).chassisAddress = x.chassisAddress := if_neg h
    exact congrArg BitVec.toNat kept
  | groupAddress =>
    have kept : (x.over y n).groupAddress = x.groupAddress := if_neg h
    exact congrArg BitVec.toNat kept
  | probeType =>
    have kept : (x.over y n).probeType = x.probeType := if_neg h
    exact congrArg BitVec.toNat kept
  | tapTagType =>
    have kept : (x.over y n).tapTagType = x.tapTagType := if_neg h
    exact congrArg BitVec.toNat kept
  | portByte p =>
    have kept : (x.over y n).portBytes = x.portBytes := if_neg h
    exact congrArg (fun bs : Vector PortByte 48 => bs[p].toByte) kept
  | ladder c =>
    have kept : (x.over y n).ladder = x.ladder := if_neg h
    exact congrArg (fun l : Vector Action 7 => l[c].code) kept
  | ledOn i =>
    have kept : (x.over y n).leds = x.leds := if_neg h
    exact congrArg (fun l : Vector LedPattern 4 => l[i].on) kept
  | ledOff i =>
    have kept : (x.over y n).leds = x.leds := if_neg h
    exact congrArg (fun l : Vector LedPattern 4 => l[i].off) kept
  | cp1Attached =>
    have kept : (x.over y n).cp1Attached = x.cp1Attached := if_neg h
    exact congrArg (fun b : Bool => if b then 1 else 0) kept
  | _ => exact if_neg h

/-- A place set to a value alike in a field keeps the field everywhere. -/
theorem set_field_other {α β : Type} {n : Nat} (field : α → β) (x : Vector α n) (i j : Fin n) {y : α} (h : field y = field x[i]) :
    field (x.set i y)[j] = field x[j] := by
  rw [getElem_set_fin]
  split
  · next hj => rw [h, hj]
  · rfl

/-- A field written leaves the values of the others. -/
theorem putRaw_value_other (pr : Profile) {f g : FieldId} (h : g ≠ f) (v : Nat) :
    (pr.putRaw f v).value g = pr.value g := by
  have index {α : Type} {n : Nat} (c : Fin n → FieldId) (i j : Fin n) (hne : c j ≠ c i) (x : Vector α n) (y : α) :
      (x.set i y)[j] = x[j] := by rw [getElem_set_fin, if_neg fun hj => hne (congrArg c hj)]
  by_cases hp : g.part = f.part
  · have same : OfPart g f.part := hp ▸ ofPart g
    cases f with
    | window i part =>
      obtain ⟨j, q, rfl⟩ := same
      by_cases hq : q = part
      · subst hq
        have hj : ¬j = i := fun hj => h (congrArg (FieldId.window · q) hj)
        have kept : (pr.windows.set i (pr.windows[i].withPart q v))[j] = pr.windows[j] := by rw [getElem_set_fin, if_neg hj]
        cases q with
        | first => exact congrArg Window.first kept
        | count => exact congrArg Window.count kept
        | guard => exact congrArg Window.guard kept
      · cases part <;> cases q <;> first
        | exact (hq rfl).elim
        | exact set_field_other Window.first pr.windows i j rfl
        | exact set_field_other Window.count pr.windows i j rfl
        | exact set_field_other Window.guard pr.windows i j rfl
    | meter i part =>
      obtain ⟨j, q, rfl⟩ := same
      by_cases hq : q = part
      · subst hq
        have hj : ¬j = i := fun hj => h (congrArg (FieldId.meter · q) hj)
        have kept : (pr.meters.set i (pr.meters[i].withPart q v))[j] = pr.meters[j] := by rw [getElem_set_fin, if_neg hj]
        cases q with
        | d => exact congrArg MeterProfile.d kept
        | w => exact congrArg MeterProfile.w kept
        | c => exact congrArg MeterProfile.c kept
        | s => exact congrArg MeterProfile.s kept
        | r => exact congrArg MeterProfile.r kept
      · cases part <;> cases q <;> first
        | exact (hq rfl).elim
        | exact set_field_other MeterProfile.d pr.meters i j rfl
        | exact set_field_other MeterProfile.w pr.meters i j rfl
        | exact set_field_other MeterProfile.c pr.meters i j rfl
        | exact set_field_other MeterProfile.s pr.meters i j rfl
        | exact set_field_other MeterProfile.r pr.meters i j rfl
    | portByte p =>
      obtain ⟨q, rfl⟩ := same
      exact congrArg PortByte.toByte (index FieldId.portByte p q h _ _)
    | ladder c =>
      obtain ⟨d, rfl⟩ := same
      exact congrArg Action.code (index FieldId.ladder c d h _ _)
    | ledOn i =>
      obtain ⟨j, rfl⟩ | ⟨j, rfl⟩ := same
      · exact congrArg LedPattern.on (index FieldId.ledOn i j h _ _)
      · exact set_field_other LedPattern.off pr.leds i j rfl
    | ledOff i =>
      obtain ⟨j, rfl⟩ | ⟨j, rfl⟩ := same
      · exact set_field_other LedPattern.on pr.leds i j rfl
      · exact congrArg LedPattern.off (index FieldId.ledOff i j h _ _)
    | _ => exact (h (Eq.symm same)).elim
  · rw [putRaw_over]
    exact over_value _ _ hp

set_option Elab.async false in
theorem putRaw_value (pr : Profile) {f : FieldId} {v : Nat} (h : v < 256 ^ f.width) (g : FieldId) :
    (pr.putRaw f v).value g = if g = f then inRange f v else pr.value g := by
  by_cases hg : g = f
  · rw [if_pos hg, hg, putRaw_value_self pr h]
  · rw [if_neg hg, putRaw_value_other pr hg]

/-! ### The clamps between values (R38, R39, R55, R127) -/

/-- A profile with every clamp between values made. -/
def Profile.settleAll (pr : Profile) : Profile := { pr with
  meters := Vector.ofFn fun i : Fin 4 => pr.meters[i].clamped, cc := max pr.cc pr.wc, hmax := max pr.hmax pr.hb }

theorem settleAll_value (pr : Profile) (g : FieldId) : pr.settleAll.value g = settled pr.value g := by
  cases g with
  | window i part => cases part <;> rfl
  | meter k part =>
    have here : pr.settleAll.meters[k] = pr.meters[k].clamped := getElem_ofFn_fin _ k
    cases part with
    | d => exact (congrArg MeterProfile.d here : _ = (pr.meters[k].clamped).d)
    | w => exact (congrArg MeterProfile.w here : _ = (pr.meters[k].clamped).w)
    | c => exact congrArg MeterProfile.c here
    | s => exact congrArg MeterProfile.s here
    | r => exact congrArg MeterProfile.r here
  | _ => rfl

theorem MeterProfile.clamped_self {m : MeterProfile} (h : m.inRange) : m.clamped = m := by
  obtain ⟨-, hrw, hwc, hcs, -⟩ := h
  obtain ⟨d, w, c, s, r⟩ := m
  simp only at hrw hwc hcs
  simp only [MeterProfile.clamped, Nat.max_eq_left hwc, Nat.max_eq_left hcs, Nat.min_eq_left hrw]

/-- A vector of which one place is mapped is mapped, where the map leaves the others. -/
theorem ofFn_map_set {α : Type} {n : Nat} (f : α → α) {x : Vector α n} (h : ∀ i : Fin n, f x[i] = x[i]) (k : Fin n) (y : α) :
    Vector.ofFn (fun i : Fin n => f (x.set k y)[i]) = (x.set k y).set k (f (x.set k y)[k]) := by
  refine vector_ext_fin fun i => (getElem_ofFn_fin _ i).trans ?_
  rw [getElem_set_fin _ k i (f (x.set k y)[k])]
  by_cases hi : i = k
  · rw [if_pos hi, hi]
  · rw [if_neg hi, getElem_set_fin, if_neg hi, h]

/-- The clamps of the field written are all that a profile in order needs (R171). -/
theorem settle_eq {pr : Profile} (h : pr.ok) (f : FieldId) (v : Nat) :
    (pr.putRaw f v).settle f = (pr.putRaw f v).settleAll := by
  obtain ⟨-, hm, -, hc, hh⟩ := pr.ok_iff.mp h
  have self (i : Fin 4) : pr.meters[i].clamped = pr.meters[i] := MeterProfile.clamped_self (hm i)
  have meters : Vector.ofFn (fun i : Fin 4 => pr.meters[i].clamped) = pr.meters :=
    vector_ext_fin fun i => (getElem_ofFn_fin _ i).trans (self i)
  have cc : max pr.cc pr.wc = pr.cc := Nat.max_eq_left hc
  have hmax : max pr.hmax pr.hb = pr.hmax := Nat.max_eq_left hh
  cases f with
  | meter k part =>
    have clamped := ofFn_map_set MeterProfile.clamped self k (pr.meters[k].withPart part v)
    simp only [Profile.settle, Profile.settleAll, Profile.putRaw, clamped, cc, hmax]
  | dc | wc | cc | ti => simp only [Profile.settle, Profile.settleAll, Profile.putRaw, meters, hmax]
  | hb | hmax => simp only [Profile.settle, Profile.settleAll, Profile.putRaw, meters, cc]
  | _ => simp only [Profile.settle, Profile.settleAll, Profile.putRaw, meters, cc, hmax]

set_option Elab.async false in
theorem write_value {pr : Profile} (h : pr.ok) {f : FieldId} {v : Nat} (hv : v < 256 ^ f.width) (g : FieldId) :
    (pr.write f v).value g = settled (fun g => if g = f then inRange f v else pr.value g) g := by
  rw [Profile.write, settle_eq h, settleAll_value]
  exact congrArg (settled · g) (funext (putRaw_value pr hv))

end Sys2Proof.Machine
end

section
/-! PROOF. The effects of the write of a profile field: the attachment of control port 1, running holds, the fingerprint
table, the indicator patterns (R100, R127, R160, R167). -/

namespace Sys2Proof.Machine

open Sys2Proof.Spec

/-! ### Control port 1 detached (R160) -/

theorem incident_bytes_length (x : Incident) : x.bytes.length = 21 := by
  simp [Incident.bytes]

theorem wire_length_none {c : CtlRec} (h : c.status = none) : c.wire.length = 1 + 0 := by
  rw [CtlRec.wire, h]
  rfl

theorem wire_length_some {c : CtlRec} {st : Status} (h : c.status = some st) : c.wire.length = 1 + (1 + c.response.length) := by
  rw [CtlRec.wire, h, List.length_cons, List.length_cons]
  omega

/-- All bytes of a READ_INCIDENTS response are copied. -/
def Answer.copied : Answer → Bool
  | .incidents r => r.lowered && decide (r.left = 0)
  | _ => false

theorem given_wire (c : CtlRec) (n : Nat) :
    given c n = (if c.answer.copied then c.wire ++ List.replicate n 0 else c.wire).take n := by
  unfold given CtlRec.wire Answer.copied
  cases c.status <;> cases c.answer <;> rfl

set_option Elab.async false in
theorem unfinished_incidents {a : Answer} (h : a.readsIncidents = true) : a.unfinished = !a.copied := by
  cases a with
  | waiting r => rfl
  | incidents r =>
    simp only [Answer.unfinished, Answer.copied, Bool.not_and]
    cases r.lowered <;> simp
  | _ => cases h

/-- What a READ_INCIDENTS transaction gives. -/
theorem given_eq {c : CtlRec} (h : c.answer.readsIncidents = true) (n : Nat) : given c n = c.sent n := by
  rw [given_wire, CtlRec.sent, unfinished_incidents h]
  cases c.answer.copied with
  | false => rfl
  | true =>
    rw [if_pos rfl, if_neg (by decide), List.take_append, List.take_append, List.take_replicate, List.take_replicate,
      Nat.min_self, Nat.min_eq_left (Nat.sub_le _ _)]

theorem flags_detached (x : Word16) : x &&& ~~~(EventFlag.incident.bit ||| EventFlag.ringLoss.bit) = x &&& 0x3FFF :=
  congrArg (x &&& ·) (by decide)

/-- What has gone out of a READ_INCIDENTS response under way, as far as it is told. -/
theorem knownOut_incidents {c : CtlRec} {r : IncidentAnswer} (h : c.answer = .incidents r) : c.knownOut =
    if r.lowered = false then 1
    else if r.current ≠ none then c.wire.length - 21
    else if c.response.length ≤ 2 then 3
    else c.wire.length := by
  rw [CtlRec.knownOut, h]
  dsimp only
  cases r.lowered with
  | false => rfl
  | true =>
    cases r.current with
    | none => rfl
    | some x => exact congrArg (c.wire.length - ·) (incident_bytes_length x)

/-- Control port 1 with its READ_INCIDENTS response abandoned, so many bytes being known to have gone out. -/
def CtlRec.cut (c : CtlRec) (known : Nat) : CtlRec := { c with
  unread := 0, lost := 0, flags := c.flags &&& 0x3FFF, status := none, response := [], answer := .abandoned
  out := given c (max c.out.length known) }

theorem detach_cut {c : CtlRec} (h : c.answer.readsIncidents = true) : c.detach = c.cut c.knownOut := by
  obtain ⟨-, hd⟩ | ⟨hn, -⟩ := detach_cases c
  · rw [hd, flags_detached, CtlRec.cut, given_eq h]
    rfl
  · rw [h] at hn
    cases hn

set_option Elab.async false in
theorem detached_incidents {c : CtlRec} {r : IncidentAnswer} (h : c.answer = .incidents r) : detached c = c.cut c.knownOut := by
  rw [knownOut_incidents h]
  unfold detached
  dsimp only
  rw [h]
  dsimp only
  cases hs : c.status with
  | none =>
    rw [wire_length_none hs]
    split
    · rfl
    · split
      · rfl
      · split <;> rfl
  | some st =>
    rw [wire_length_some hs]
    split
    · rfl
    · split
      · rfl
      · split <;> rfl

theorem detached_waiting {c : CtlRec} {n : Nat} (h : c.answer = .waiting (.incidents n)) : detached c = c.cut c.knownOut := by
  have known : c.knownOut = 0 := by rw [CtlRec.knownOut, h]
  rw [known]
  unfold detached
  rw [h]
  rfl

theorem detached_other {c : CtlRec} (h : c.answer.readsIncidents = false) :
    detached c = { c with unread := 0, lost := 0, flags := c.flags &&& 0x3FFF } := by
  unfold detached
  cases ha : c.answer with
  | waiting r =>
    cases r with
    | incidents n => rw [ha] at h; cases h
    | _ => rfl
  | incidents r => rw [ha] at h; cases h
  | _ => rfl

/-- Control port 1 is detached as R160 says. -/
theorem detach_eq (c : CtlRec) : c.detach = detached c := by
  cases h : c.answer.readsIncidents with
  | false =>
    obtain ⟨hn, -⟩ | ⟨-, hd⟩ := detach_cases c
    · rw [h] at hn
      cases hn
    · rw [hd, flags_detached, detached_other h]
  | true =>
    rw [detach_cut h]
    cases ha : c.answer with
    | waiting r =>
      cases r with
      | incidents n => rw [detached_waiting ha]
      | _ => rw [ha] at h; cases h
    | incidents r => rw [detached_incidents ha]
    | _ => rw [ha] at h; cases h

/-! ### One field written (R100, R127, R160, R167) -/

/-- The attachment of control port 1 turns. -/
theorem setAttached_turned {s : State} {yes : Bool} (h : yes ≠ s.profile.cp1Attached) : s.setAttached yes = { s with
    profile := { s.profile with cp1Attached := yes }
    cps := ⟨s.cps.cp0, if s.profile.cp1Attached then detached s.cps.cp1 else { s.cps.cp1 with unread := 0, lost := 0 }⟩
    ring := s.ring.drop (s.ring.length - s.cps.cp0.unread) } := by
  have port : (if yes then s.cps.cp1.attach else s.cps.cp1.detach) =
      if s.profile.cp1Attached then detached s.cps.cp1 else { s.cps.cp1 with unread := 0, lost := 0 } := by
    cases yes with
    | true => rw [if_pos rfl, if_neg fun ha => h ha.symm]; rfl
    | false =>
      have ha : s.profile.cp1Attached = true := by
        cases hb : s.profile.cp1Attached with
        | true => rfl
        | false => exact (h hb.symm).elim
      rw [if_neg Bool.false_ne_true, if_pos ha, detach_eq]
  have clear : (if yes then (if yes then s.cps.cp1.attach else s.cps.cp1.detach).unread else 0) = 0 := by cases yes <;> rfl
  have furthest : max s.cps.cp0.unread (if yes then (if yes then s.cps.cp1.attach else s.cps.cp1.detach).unread else 0) =
      s.cps.cp0.unread := by rw [clear, Nat.max_zero]
  rw [State.setAttached, if_neg fun ha => h ha.symm, State.freeRead, State.furthest]
  dsimp only
  rw [furthest, port]

/-- What the write of a field does to the indicator driver (R167). -/
def ledWritten (led : LedRec) (f : FieldId) : LedRec :=
  match f with
  | .ledOn k => { led with phases := led.phases.set k 0 }
  | .ledOff k => { led with phases := led.phases.set k 0 }
  | _ => led

/-- The write of a field turns the attachment of control port 1 (R160). -/
def State.turns (s : State) (f : FieldId) (pr : Profile) : Bool :=
  decide (f = .cp1Attached ∧ pr.cp1Attached ≠ s.profile.cp1Attached)

/-- The state with a profile in which one field that is no window is written, and the effects of the write. -/
def State.written (s : State) (f : FieldId) (pr : Profile) : State := { s with
  profile := pr
  ports := if f = .hmax then Vector.ofFn fun p : Port => s.ports[p].capHold pr.hmax else s.ports
  table := if f = .we then s.table.filter fun x => s.live x.2 else s.table
  led := ledWritten s.led f
  cps := if s.turns f pr then
      ⟨s.cps.cp0, if s.profile.cp1Attached then detached s.cps.cp1 else { s.cps.cp1 with unread := 0, lost := 0 }⟩
    else s.cps
  ring := if s.turns f pr then s.ring.drop (s.ring.length - s.cps.cp0.unread) else s.ring }

set_option Elab.async false in
/-- A field without effect beyond the profile. -/
theorem written_plain (s : State) {f : FieldId} (pr : Profile) (hh : f ≠ .hmax) (hw : f ≠ .we) (hl : ledWritten s.led f = s.led)
    (ht : s.turns f pr = false) : s.written f pr = { s with profile := pr } := by
  rw [State.written, if_neg hh, if_neg hw, hl, ht]
  rfl

theorem written_turned (s : State) (pr : Profile) (ht : s.turns .cp1Attached pr = true) : s.written .cp1Attached pr = { s with
    profile := pr
    cps := ⟨s.cps.cp0, if s.profile.cp1Attached then detached s.cps.cp1 else { s.cps.cp1 with unread := 0, lost := 0 }⟩
    ring := s.ring.drop (s.ring.length - s.cps.cp0.unread) } := by
  have hh : ¬FieldId.cp1Attached = FieldId.hmax := FieldId.noConfusion
  have hw : ¬FieldId.cp1Attached = FieldId.we := FieldId.noConfusion
  rw [State.written, if_neg hh, if_neg hw, ht]
  rfl

theorem turns_other (s : State) {f : FieldId} (pr : Profile) (h : f ≠ .cp1Attached) : s.turns f pr = false :=
  decide_eq_false fun ht => h ht.1

theorem writeField_attached (s : State) (v : Nat) :
    s.writeField .cp1Attached v = some (s.written .cp1Attached (s.profile.write .cp1Attached v)) := by
  let pr := s.profile.write .cp1Attached v
  have write : pr = { s.profile with cp1Attached := pr.cp1Attached } := rfl
  refine congrArg some ?_
  change s.setAttached pr.cp1Attached = s.written .cp1Attached pr
  by_cases h : pr.cp1Attached = s.profile.cp1Attached
  · have turns : s.turns .cp1Attached pr = false := decide_eq_false fun ht => ht.2 h
    have same : pr = s.profile := by rw [write, h]
    rw [written_plain s pr FieldId.noConfusion FieldId.noConfusion rfl turns, same]
    exact if_pos rfl
  · have turns : s.turns .cp1Attached pr = true := decide_eq_true ⟨rfl, h⟩
    rw [setAttached_turned h, written_turned s pr turns, ← write]

set_option Elab.async false in
/-- A field that is no window is written with its effects (R171). -/
theorem writeField_written (s : State) {f : FieldId} (h : f.isWindow = false) (v : Nat) :
    s.writeField f v = some (s.written f (s.profile.write f v)) := by
  cases f with
  | window i part => cases h
  | cp1Attached => exact writeField_attached s v
  | hmax => rfl
  | we => rfl
  | ledOn i => rfl
  | ledOff i => rfl
  | _ =>
    exact congrArg some (written_plain s _ FieldId.noConfusion FieldId.noConfusion rfl
      (turns_other s _ FieldId.noConfusion)).symm

/-- Settles O49. -/
theorem oneFieldIsWritten : Obligations.OneFieldIsWritten := by
  intro s i v f hs hready hf hv hwindow hok pr put
  have run := exec_writeOne hs hready hf (beBytes_length f.width v) fun hw => Bool.noConfusion (hwindow.symm.trans hw)
  rw [beNat_width hv, writeField_written s hwindow] at run
  refine ⟨_, run, Profile.write_ok hok hwindow v, write_value hok hv, ?_⟩
  intro capped kept turned attached
  have led {x : LedRec} (h : ledWritten s.led f = x) : s.written f (s.profile.write f v) = { s with
      profile := s.profile.write f v
      ports := if f = .hmax then Vector.ofFn capped else s.ports
      table := if f = .we then kept else s.table
      led := x
      cps := if turned then ⟨s.cps.cp0, if pr.cp1Attached then detached s.cps.cp1 else attached⟩ else s.cps
      ring := if turned then s.ring.drop (s.ring.length - s.cps.cp0.unread) else s.ring } := by
    subst h
    rfl
  exact congrArg (ok · .cp0) (led (by cases f <;> rfl))

end Sys2Proof.Machine
end

section
/-! PROOF. The engine restarted and released (R2, R31, R77, R116, R141, R149, R174, R181, R182). -/

namespace Sys2Proof.Machine

open Sys2Proof.Spec

/-! ### The engine starts (R179) -/

theorem run_eq (r : PortRec) : r.run = startRecord r := by
  unfold PortRec.run startRecord
  cases r.mode with
  | auto => cases r.linkUp <;> rfl
  | pinned => cases r.linkUp <;> rfl
  | held => rfl

theorem becomeRunning_eq (s : State) : s.becomeRunning = start s := by
  have records : (fun p : Port => (s.port p).run) = fun p : Port => startRecord (s.port p) := funext fun p => run_eq _
  unfold State.becomeRunning start
  rw [records]

/-! ### The engine restarted (R2, R77, R116, R181) -/

set_option Elab.async false in
theorem restart_frame (s : State) : s.restart = { s with
    running := false, ports := s.restart.ports, taps := s.restart.taps, lastTaken := .b, analysing := none, classLevel := 0
    classTimer := none, slotTimer := none, slotIndex := 0, lastTapServed := .b, firstDeferred := none
    runNumber := s.runNumber + 1, probes := [], lifeLimit := none, urgent := [], table := [], decayTimer := none, sweep := 0
    gateReqs := [], epoch := 0, holdOwner := none, find := s.restart.find, cps := s.restart.cps } := by
  unfold State.restart
  rw [abortFind_frame]

theorem restart_port (s : State) (p : Port) : s.restart.port p = (s.port p).restart := getElem_ofFn_fin _ p

theorem PortRec.restart_eq (r : PortRec) : r.restart = { r with
    state := match r.mode with
      | .auto => .down
      | .pinned => if r.linkUp then .opened else .down
      | .held => .shut
    level := 0, calm := true, backlog := if r.mode = .auto then 3 else 0, confirm := false
    listenProbe := none, echoScore := 0, penalty := 0, hold := 0
    listenTimer := ⟨false, 0, false⟩, releaseTimer := ⟨false, 0, false⟩, goodTimer := ⟨false, 0, false⟩ } := by
  unfold PortRec.restart
  cases r.mode <;> rfl

set_option Elab.async false in
theorem restart_tap (s : State) (t : TapId) : s.restart.taps.get t = (s.taps.get t).restart := by
  cases t <;> rfl

theorem restart_sending {x : TapRec} (h : x.sending ≠ .head) : x.restart.sending = x.sending := by
  rw [TapRec.restart]
  dsimp only
  cases hs : x.sending with
  | head => exact (h hs).elim
  | idle => rfl
  | orphan q => rfl

theorem restart_orphan {x : TapRec} {q : TxProbe} {rest : List TxProbe} (h : x.sending = .head) (hq : x.queue = q :: rest) :
    x.restart.sending = .orphan q := by
  rw [TapRec.restart]
  dsimp only
  rw [h, hq]

set_option Elab.async false in
theorem restart_find (s : State) : s.restart.find = s.abortFind.find ∧ s.restart.cps = s.abortFind.cps := ⟨rfl, rfl⟩

theorem abortFind_none {s : State} (h : ∀ n r, s.find ≠ .scanning n r) : s.abortFind = s := by
  unfold State.abortFind
  split
  · next n r hf => exact (h n r hf).elim
  · rfl

set_option Elab.async false in
theorem exec_releaseEngine {s : State} (hs : Listening s .cp0) (hl : s.store.condition ≠ .loading) :
    exec (.releaseEngine .cp0) s = .next (ok (if s.running then s else s.becomeRunning) .cp0) := by
  have hload : s.loading = false := decide_eq_false hl
  refine command_runs hs.1 hs.2 ?_ _
  rw [hload]
  rfl

/-- Settles O55. -/
theorem engineIsRestartedAndReleased : Obligations.EngineIsRestartedAndReleased := by
  intro s hs hl
  refine ⟨⟨s.restart, exec_restartEngine hs hl (b := true) rfl, ?_, restart_frame s, fun p => ?_,
    fun t => ⟨?_, fun h => ?_, fun q rest h hq => ?_⟩, fun n r hf => ?_, fun hf => ?_⟩, ?_⟩
  · rw [exec_restartEngine hs hl (b := false) rfl, ← becomeRunning_eq]
    rfl
  · exact (restart_port s p).trans (PortRec.restart_eq _)
  · rw [restart_tap]
    rfl
  · rw [restart_tap, restart_sending h]
  · rw [restart_tap, restart_orphan h hq]
  · obtain ⟨hfind, hcps⟩ := restart_find s
    rw [hfind, hcps, State.abortFind, hf]
    exact ⟨rfl, rfl⟩
  · obtain ⟨hfind, hcps⟩ := restart_find s
    rw [hfind, hcps, abortFind_none hf]
    exact ⟨rfl, rfl⟩
  · rw [exec_releaseEngine hs hl, becomeRunning_eq]

end Sys2Proof.Machine
end

section
/-! PROOF. The profile image: the check word, the fields of an image taken as a profile, and a saved image loaded back
(R178, R180, R189). -/

namespace Sys2Proof.Machine

open Sys2Proof.Spec

/-! ### The check word (R66, R189) -/

theorem wordSum_append : ∀ (xs ys : List Byte), xs.length % 2 = 0 → wordSum (xs ++ ys) = wordSum xs + wordSum ys
  | [], ys, _ => by simp [wordSum]
  | [_], _, h => by simp at h
  | x :: y :: xs, ys, h => by
    have even : xs.length % 2 = 0 := by
      rw [List.length_cons, List.length_cons] at h
      omega
    simp only [List.cons_append, wordSum, wordSum_append xs ys even, Nat.add_assoc]

theorem wordSum_word (v : Nat) : wordSum (beBytes 2 v) = v % 65536 := by
  simp only [beBytes, wordSum, BitVec.toNat_ofNat]
  omega

/-- Bytes and the check word after them sum to all ones (R66, R189). -/
theorem wordSum_checked {body : List Byte} (h : body.length % 2 = 0) :
    wordSum (body ++ beBytes 2 ((65535 + 65536 - wordSum body % 65536) % 65536)) % 65536 = 65535 := by
  rw [wordSum_append _ _ h, wordSum_word]
  omega

/-! ### A value and its range -/

theorem toByte_mode (b : PortByte) : b.toByte % 4 = b.mode.code ∧ b.mode.code ≤ 2 := by
  have mode : b.mode.code ≤ 2 := by cases b.mode <;> decide
  refine ⟨?_, mode⟩
  rw [PortByte.toByte]
  omega

theorem toByte_lt (b : PortByte) : b.toByte < 256 := by
  obtain ⟨-, mode⟩ := toByte_mode b
  have slot := b.slot.isLt
  have meter := b.meter.isLt
  rw [PortByte.toByte]
  omega

theorem toByte_inj {a b : PortByte} (h : a.toByte = b.toByte) : a = b := by
  obtain ⟨ha, ha'⟩ := toByte_mode a
  obtain ⟨hb, hb'⟩ := toByte_mode b
  have mode : a.mode.code = b.mode.code := by rw [← ha, h, hb]
  obtain ⟨m, i, x⟩ := a
  obtain ⟨n, j, y⟩ := b
  simp only [PortByte.toByte] at h mode
  have meter : m = n := Fin.ext (by omega)
  have slot : i = j := Fin.ext (by omega)
  have same : x = y := by cases x <;> cases y <;> first | rfl | exact absurd mode (by decide)
  rw [meter, slot, same]

theorem action_code_inj {a b : Action} (h : a.code = b.code) : a = b := by
  cases a <;> cases b <;> first | rfl | exact absurd h (by decide)

/-- The value of every field of a profile in order lies in the field's range. -/
theorem value_inRange {pr : Profile} (h : pr.ok) (f : FieldId) : inRange f (pr.value f) = pr.value f := by
  obtain ⟨-, hm, hr, hc, hh⟩ := pr.ok_iff.mp h
  have near {lo hi v : Nat} (hv : lo ≤ v ∧ v ≤ hi) : max lo (min v hi) = v := by omega
  have upTo {hi v : Nat} (hv : v ≤ hi) : max 0 (min v hi) = v := near ⟨Nat.zero_le v, hv⟩
  cases f with
  | groupAddress =>
    have group := lor_groupBit pr.groupAddress.isLt
    rw [BitVec.ofNat_toNat, BitVec.setWidth_eq, hr.group] at group
    exact group.symm
  | meter i part =>
    cases part with
    | d => exact upTo (hm i).1
    | _ => rfl
  | portByte p =>
    obtain ⟨mode, hmode⟩ := toByte_mode pr.portBytes[p]
    exact if_neg fun h3 => by
      have := mode.symm.trans h3
      omega
  | wc => exact upTo hr.wc
  | cc => exact upTo hr.cc
  | ti => exact near hr.ti
  | ts => exact near hr.ts
  | lp => exact near hr.lp
  | listenLimit => exact near hr.listenLimit
  | tr => exact near hr.tr
  | tg => exact near hr.tg
  | hb => exact near hr.hb
  | hmax => exact near hr.hmax
  | we => exact near hr.we
  | nr => exact near hr.nr
  | ne => exact near hr.ne
  | td => exact near hr.td
  | holdOff => exact near hr.holdOff
  | tsil => exact near hr.tsil
  | ladder c =>
    have code : pr.ladder[c].code ≤ 3 := by cases pr.ladder[c] <;> decide
    exact upTo code
  | ledOn i => exact upTo (hr.leds i).1
  | ledOff i => exact upTo (hr.leds i).2
  | cp1Attached =>
    have code : (if pr.cp1Attached then 1 else 0) ≤ 1 := by cases pr.cp1Attached <;> decide
    exact upTo code
  | _ => rfl

set_option Elab.async false in
/-- The value of every field of a profile in order fits the field's width in the image (R189). -/
theorem value_lt {pr : Profile} (h : pr.ok) (f : FieldId) : pr.value f < 256 ^ f.width := by
  obtain ⟨⟨hw, -⟩, hm, hr, -, -⟩ := pr.ok_iff.mp h
  have byte {hi v : Nat} (hv : v ≤ hi) (hn : Nat.blt hi 256 = true) : v < 256 ^ 1 :=
    Nat.lt_of_le_of_lt hv (Nat.blt_eq.mp hn)
  have word {hi v : Nat} (hv : v ≤ hi) (hn : Nat.blt hi 65536 = true) : v < 256 ^ 2 :=
    Nat.lt_of_le_of_lt hv (Nat.blt_eq.mp hn)
  have long {hi v : Nat} (hv : v ≤ hi) (hn : Nat.blt hi 4294967296 = true) : v < 256 ^ 4 :=
    Nat.lt_of_le_of_lt hv (Nat.blt_eq.mp hn)
  cases f with
  | chassisNumber => exact pr.chassisNumber.isLt
  | chassisAddress => exact pr.chassisAddress.isLt
  | groupAddress => exact pr.groupAddress.isLt
  | probeType => exact pr.probeType.isLt
  | tapTagType => exact pr.tapTagType.isLt
  | window i part =>
    obtain ⟨first, guard, left, right⟩ := hw i
    cases part with
    | first => exact byte first rfl
    | count => exact byte ((Nat.le_add_left _ _).trans left) rfl
    | guard => exact byte guard rfl
  | meter i part =>
    obtain ⟨d, hw, hc, hs, hrelease⟩ := hr.meters i
    cases part with
    | d => exact word d rfl
    | w => exact word hw rfl
    | c => exact word hc rfl
    | s => exact word hs rfl
    | r => exact word hrelease rfl
  | portByte p => exact toByte_lt _
  | dc => exact word hr.dc rfl
  | wc => exact long hr.wc rfl
  | cc => exact long hr.cc rfl
  | ti => exact word hr.ti.2 rfl
  | ts => exact word hr.ts.2 rfl
  | lp => exact word hr.lp.2 rfl
  | listenLimit => exact word hr.listenLimit.2 rfl
  | tr => exact word hr.tr.2 rfl
  | tg => exact word hr.tg.2 rfl
  | hb => exact word hr.hb.2 rfl
  | hmax => exact word hr.hmax.2 rfl
  | we => exact word hr.we.2 rfl
  | nr => exact byte hr.nr.2 rfl
  | ne => exact byte hr.ne.2 rfl
  | td => exact word hr.td.2 rfl
  | holdOff => exact word hr.holdOff.2 rfl
  | tsil => exact word hr.tsil.2 rfl
  | ladder c =>
    have code : pr.ladder[c].code ≤ 3 := by cases pr.ladder[c] <;> decide
    exact byte code rfl
  | ledOn i => exact byte (hr.leds i).1 rfl
  | ledOff i => exact byte (hr.leds i).2 rfl
  | cp1Attached =>
    have code : (if pr.cp1Attached then 1 else 0) ≤ 1 := by cases pr.cp1Attached <;> decide
    exact byte code rfl

theorem window_ext {a b : Window} (hfirst : a.first = b.first) (hcount : a.count = b.count) (hguard : a.guard = b.guard) : a = b := by
  obtain ⟨⟩ := a
  obtain ⟨⟩ := b
  exact (Window.mk.injEq ..).mpr ⟨hfirst, hcount, hguard⟩

theorem meterProfile_ext {a b : MeterProfile} (hd : a.d = b.d) (hw : a.w = b.w) (hc : a.c = b.c) (hs : a.s = b.s)
    (hr : a.r = b.r) : a = b := by
  obtain ⟨⟩ := a
  obtain ⟨⟩ := b
  exact (MeterProfile.mk.injEq ..).mpr ⟨hd, hw, hc, hs, hr⟩

theorem ledPattern_ext {a b : LedPattern} (hon : a.on = b.on) (hoff : a.off = b.off) : a = b := by
  obtain ⟨⟩ := a
  obtain ⟨⟩ := b
  exact (LedPattern.mk.injEq ..).mpr ⟨hon, hoff⟩

/-- A profile is its values. -/
theorem value_ext {x y : Profile} (h : ∀ f, x.value f = y.value f) : x = y := by
  have windows : x.windows = y.windows := vector_ext_fin fun i =>
    window_ext (h (.window i .first)) (h (.window i .count)) (h (.window i .guard))
  have meters : x.meters = y.meters := vector_ext_fin fun i =>
    meterProfile_ext (h (.meter i .d)) (h (.meter i .w)) (h (.meter i .c)) (h (.meter i .s)) (h (.meter i .r))
  have portBytes : x.portBytes = y.portBytes := vector_ext_fin fun p => toByte_inj (h (.portByte p))
  have ladder : x.ladder = y.ladder := vector_ext_fin fun c => action_code_inj (h (.ladder c))
  have leds : x.leds = y.leds := vector_ext_fin fun i => ledPattern_ext (h (.ledOn i)) (h (.ledOff i))
  have attached : x.cp1Attached = y.cp1Attached := by
    have code : (if x.cp1Attached then 1 else 0) = if y.cp1Attached then 1 else 0 := h .cp1Attached
    cases hx : x.cp1Attached <;> cases hy : y.cp1Attached <;> rw [hx, hy] at code <;> first | rfl | cases code
  obtain ⟨⟩ := x
  obtain ⟨⟩ := y
  exact (Profile.mk.injEq ..).mpr ⟨BitVec.eq_of_toNat_eq (h .chassisNumber), BitVec.eq_of_toNat_eq (h .chassisAddress),
    BitVec.eq_of_toNat_eq (h .groupAddress), BitVec.eq_of_toNat_eq (h .probeType), BitVec.eq_of_toNat_eq (h .tapTagType),
    windows, meters, portBytes, h .dc, h .wc, h .cc, h .ti, h .ts, h .lp, h .listenLimit, h .tr, h .tg, h .hb, h .hmax, h .we,
    h .nr, h .ne, h .td, h .holdOff, h .tsil, ladder, leds, attached⟩

/-! ### The fields of an image (R189) -/

/-- The groups of the fields in image order. -/
def fieldGroups : List (List FieldId) :=
  [identityFields, (List.finRange 4).flatMap windowFields, (List.finRange 4).flatMap meterFields,
    (List.finRange 48).map FieldId.portByte, timingFields, (List.finRange 7).map FieldId.ladder,
    (List.finRange 4).flatMap ledFields, [FieldId.cp1Attached]]

/-- A field of a group is one of the fields. -/
theorem mem_of_group (k : Nat) {l : List FieldId} {f : FieldId} (hl : fieldGroups[k]? = some l) (h : f ∈ l) : f ∈ fieldOrder :=
  List.mem_flatten.mpr ⟨l, List.mem_of_getElem? hl, h⟩

theorem mem_indexed {n : Nat} (g : Fin n → List FieldId) (i : Fin n) {f : FieldId} (k : Nat) (h : (g i)[k]? = some f) :
    f ∈ (List.finRange n).flatMap g := List.mem_flatMap.mpr ⟨i, List.mem_finRange i, List.mem_of_getElem? h⟩

theorem mem_fieldOrder (f : FieldId) : f ∈ fieldOrder := by
  have identity (k : Nat) (h : identityFields[k]? = some f) : f ∈ fieldOrder := mem_of_group 0 rfl (List.mem_of_getElem? h)
  have timing (k : Nat) (h : timingFields[k]? = some f) : f ∈ fieldOrder := mem_of_group 4 rfl (List.mem_of_getElem? h)
  cases f with
  | chassisNumber => exact identity 0 rfl
  | chassisAddress => exact identity 1 rfl
  | groupAddress => exact identity 2 rfl
  | probeType => exact identity 3 rfl
  | tapTagType => exact identity 4 rfl
  | window i part =>
    refine mem_of_group 1 rfl ?_
    cases part with
    | first => exact mem_indexed windowFields i 0 rfl
    | count => exact mem_indexed windowFields i 1 rfl
    | guard => exact mem_indexed windowFields i 2 rfl
  | meter i part =>
    refine mem_of_group 2 rfl ?_
    cases part with
    | d => exact mem_indexed meterFields i 0 rfl
    | w => exact mem_indexed meterFields i 1 rfl
    | c => exact mem_indexed meterFields i 2 rfl
    | s => exact mem_indexed meterFields i 3 rfl
    | r => exact mem_indexed meterFields i 4 rfl
  | portByte p => exact mem_of_group 3 rfl (List.mem_map_of_mem (List.mem_finRange p))
  | dc => exact timing 0 rfl
  | wc => exact timing 1 rfl
  | cc => exact timing 2 rfl
  | ti => exact timing 3 rfl
  | ts => exact timing 4 rfl
  | lp => exact timing 5 rfl
  | listenLimit => exact timing 6 rfl
  | tr => exact timing 7 rfl
  | tg => exact timing 8 rfl
  | hb => exact timing 9 rfl
  | hmax => exact timing 10 rfl
  | we => exact timing 11 rfl
  | nr => exact timing 12 rfl
  | ne => exact timing 13 rfl
  | td => exact timing 14 rfl
  | holdOff => exact timing 15 rfl
  | tsil => exact timing 16 rfl
  | ladder c => exact mem_of_group 5 rfl (List.mem_map_of_mem (List.mem_finRange c))
  | ledOn i => exact mem_of_group 6 rfl (mem_indexed ledFields i 0 rfl)
  | ledOff i => exact mem_of_group 6 rfl (mem_indexed ledFields i 1 rfl)
  | cp1Attached => exact mem_of_group 7 rfl (List.mem_singleton_self _)

/-- A run of fields put with one value each: every field of the run carries its value brought into range. -/
theorem putRaw_run {v : FieldId → Nat} (hv : ∀ f, v f < 256 ^ f.width) (fs : List FieldId) (pr : Profile) (g : FieldId) :
    ((fs.map fun f => (f, v f)).foldl (fun p fv => p.putRaw fv.1 fv.2) pr).value g =
      if g ∈ fs then inRange g (v g) else pr.value g := by
  induction fs generalizing pr with
  | nil => exact (if_neg List.not_mem_nil).symm
  | cons f fs ih =>
    rw [List.map_cons, List.foldl_cons, ih, putRaw_value pr (hv f)]
    by_cases hg : g ∈ fs
    · rw [if_pos hg, if_pos (List.mem_cons_of_mem f hg)]
    · rw [if_neg hg]
      by_cases hf : g = f
      · rw [if_pos hf, if_pos (hf ▸ List.mem_cons_self), hf]
      · rw [if_neg hf, if_neg fun h => (List.mem_cons.mp h).elim hf hg]

/-- The fields of an image are put with the values it spells. -/
theorem loadedRaw_value (pr : Profile) {acked : List Byte} {v : FieldId → Nat} (hv : ∀ f, v f < 256 ^ f.width)
    (h : splitValues fieldOrder (acked.drop 4) = some (fieldOrder.map fun f => (f, v f))) (g : FieldId) :
    (pr.loadedRaw acked).value g = inRange g (v g) := by
  rw [Profile.loadedRaw, h, Option.getD_some, putRaw_run hv, if_pos (mem_fieldOrder g)]

theorem fieldBytes_length (pr : Profile) (f : FieldId) : (pr.fieldBytes f).length = f.width := beBytes_length _ _

set_option Elab.async false in
theorem flatMap_fieldBytes_length (pr : Profile) (fs : List FieldId) : (fs.flatMap pr.fieldBytes).length = runWidth fs := by
  rw [List.length_flatMap, runWidth]
  exact congrArg List.sum (List.map_congr_left fun f _ => fieldBytes_length pr f)

/-- The bytes of the fields of a profile in order spell its values. -/
theorem splitValues_fieldBytes {pr : Profile} (h : pr.ok) (fs : List FieldId) (more : List Byte) :
    splitValues fs (fs.flatMap pr.fieldBytes ++ more) = some (fs.map fun f => (f, pr.value f)) := by
  induction fs with
  | nil => rfl
  | cons f fs ih =>
    rw [List.flatMap_cons, List.append_assoc, splitValues_cons (fieldBytes_length pr f), ih, Profile.fieldBytes,
      beNat_width (value_lt h f)]
    rfl

/-! ### The image of a profile (R180, R189) -/

/-- The image but for its check word. -/
def Profile.imageBody (pr : Profile) : List Byte :=
  beBytes 2 0x5244 ++ beBytes 2 256 ++ fieldOrder.flatMap pr.fieldBytes ++ List.replicate 78 0

theorem image_eq (pr : Profile) : pr.image =
    pr.imageBody ++ beBytes 2 ((65535 + 65536 - wordSum pr.imageBody % 65536) % 65536) := rfl

theorem imageBody_length (pr : Profile) : pr.imageBody.length = 254 := by
  have width : runWidth fieldOrder = 172 := by decide +kernel
  rw [Profile.imageBody, List.length_append, List.length_append, flatMap_fieldBytes_length, width]
  rfl

theorem image_length (pr : Profile) : pr.image.length = 256 := by
  rw [image_eq, List.length_append, imageBody_length, beBytes_length]

theorem image_sum (pr : Profile) : wordSum pr.image % 65536 = 65535 := by
  rw [image_eq, wordSum_checked (by rw [imageBody_length])]

theorem magic_bytes : beBytes 2 0x5244 ++ beBytes 2 256 = [0x52, 0x44, 1, 0] := by decide

theorem image_head (pr : Profile) : ∃ more, pr.image =
    [0x52, 0x44, 1, 0] ++ (fieldOrder.flatMap pr.fieldBytes ++ more) := by
  refine ⟨List.replicate 78 0 ++ beBytes 2 ((65535 + 65536 - wordSum pr.imageBody % 65536) % 65536), ?_⟩
  rw [image_eq]
  generalize beBytes 2 ((65535 + 65536 - wordSum pr.imageBody % 65536) % 65536) = check
  rw [Profile.imageBody, magic_bytes, List.append_assoc, List.append_assoc]

set_option Elab.async false in
theorem image_judged (pr : Profile) : judgeImage pr.image = .loaded := by
  obtain ⟨more, head⟩ := image_head pr
  have first : wordAt pr.image 0 = 0x5244 := by
    rw [wordAt_eq, head]
    change (0x52 : Byte).toNat * 256 + (0x44 : Byte).toNat = 0x5244
    decide
  have second : wordAt pr.image 2 = 256 := by
    rw [wordAt_eq, head]
    change (1 : Byte).toNat * 256 + (0 : Byte).toNat = 256
    decide
  have whole : pr.image.take 256 = pr.image := List.take_of_length_le (Nat.le_of_eq (image_length pr))
  rw [judgeImage, image_length, first, second, whole, image_sum]
  rfl

theorem splitValues_image {pr : Profile} (h : pr.ok) :
    splitValues fieldOrder (pr.image.drop 4) = some (fieldOrder.map fun f => (f, pr.value f)) := by
  obtain ⟨more, head⟩ := image_head pr
  rw [head]
  exact splitValues_fieldBytes h fieldOrder more

theorem loadedRaw_image {pr : Profile} (h : pr.ok) (before : Profile) : before.loadedRaw pr.image = pr :=
  value_ext fun f => (loadedRaw_value before (value_lt h) (splitValues_image h) f).trans (value_inRange h f)

/-! ### Windows and clamps of a profile in order -/

theorem Window.clamped_self {w : Window} (h : w.inRange) : w.clamped = w := by
  obtain ⟨hfirst, hguard, hleft, hright⟩ := h
  obtain ⟨first, count, guard⟩ := w
  simp only at hfirst hguard hleft hright
  have counted : min (min count 32) (min (32 - first) (48 - guard)) = count := by omega
  rw [Window.clamped, Nat.min_eq_left hfirst, Nat.min_eq_left hguard, counted]

/-- Windows in range of which no two share a guard port are taken as they are (R15). -/
theorem takeWindows_free {taken ws : List Window} (hw : ∀ w ∈ ws, w.inRange)
    (hfree : (taken ++ ws).Pairwise fun x y => y.overlaps x = false) : takeWindows taken ws = (taken ++ ws, false) := by
  induction ws generalizing taken with
  | nil => rw [takeWindows_nil, List.append_nil]
  | cons w ws ih =>
    have self : w.clamped = w := Window.clamped_self (hw w List.mem_cons_self)
    have free : taken.any w.overlaps = false := by
      refine List.any_eq_false.mpr fun x hx => ?_
      rw [(List.pairwise_append.mp hfree).2.2 x hx w List.mem_cons_self]
      exact Bool.false_ne_true
    have kept : w.taken taken = w := by rw [Window.taken, self, free, if_neg Bool.false_ne_true]
    have split : taken ++ [w] ++ ws = taken ++ w :: ws := by rw [List.append_assoc, List.singleton_append]
    rw [takeWindows_cons, self, free, kept, ih (fun x hx => hw x (List.mem_cons_of_mem w hx)) (split ▸ hfree), split,
      Bool.false_or]

theorem takeWindows_ok {pr : Profile} (h : pr.windowsOk) : takeWindows [] pr.windows.toList = (pr.windows.toList, false) := by
  obtain ⟨hw, hfree⟩ := h
  refine takeWindows_free (fun w hmem => ?_) (List.pairwise_iff_getElem.mpr fun i j hi hj hij => ?_)
  · obtain ⟨i, hi, rfl⟩ := List.getElem_of_mem hmem
    exact hw ⟨i, by simpa using hi⟩
  · exact hfree ⟨j, by simpa using hj⟩ ⟨i, by simpa using hi⟩ fun he => (Nat.ne_of_gt hij) (Fin.mk.inj he)

theorem settleAll_self {pr : Profile} (h : pr.ok) : pr.settleAll = pr := by
  obtain ⟨-, hm, -, hc, hh⟩ := pr.ok_iff.mp h
  have meters : Vector.ofFn (fun i : Fin 4 => pr.meters[i].clamped) = pr.meters :=
    vector_ext_fin fun i => (getElem_ofFn_fin _ i).trans (MeterProfile.clamped_self (hm i))
  rw [Profile.settleAll, meters, Nat.max_eq_left hc, Nat.max_eq_left hh]

/-- A load settles the values that the image spells and takes its windows. -/
theorem load_settleAll (pr : Profile) (acked : List Byte) : (pr.load acked).1 = { (pr.loadedRaw acked).settleAll with
    windows := Vector.ofFn fun i => (pr.loadedWindows acked).1.getD i.val ⟨0, 0, 0⟩ } := rfl

set_option Elab.async false in
theorem load_image {pr : Profile} (h : pr.ok) (before : Profile) : before.load pr.image = (pr, false) := by
  obtain ⟨hw, -, -, -, -⟩ := pr.ok_iff.mp h
  have raw := loadedRaw_image h before
  have taken : before.loadedWindows pr.image = (pr.windows.toList, false) := by
    rw [Profile.loadedWindows, raw, takeWindows_ok hw]
  have windows : Vector.ofFn (fun i : Fin 4 => pr.windows.toList.getD i.val ⟨0, 0, 0⟩) = pr.windows :=
    vector_ext_fin fun i => (getElem_ofFn_fin _ i).trans (by simp [List.getD_eq_getElem?_getD])
  refine Prod.ext ?_ ?_
  · rw [load_settleAll, raw, taken, settleAll_self h, windows]
  · rw [Profile.load_eq, taken]

/-- Settles O52. -/
theorem savedImagesLoadBack : Obligations.SavedImagesLoadBack := fun pr before h =>
  ⟨image_length pr, image_sum pr, image_judged pr, load_image h before⟩

end Sys2Proof.Machine
end

section
/-! PROOF. The end of the power-on load: the image judged, its values and windows taken, and the engine started (R15, R39,
R55, R127 to R129, R177 to R179, R189). -/

namespace Sys2Proof.Machine

open Sys2Proof.Spec

/-! ### What the loader makes of the bytes (R178) -/

theorem headWord_iff (bs : List Byte) (i x y : Nat) (hy : y < 256) :
    headWord bs i = x * 256 + y ↔ (bs.getD i 0).toNat = x ∧ (bs.getD (i + 1) 0).toNat = y := by
  have low := (bs.getD (i + 1) 0).isLt
  rw [headWord]
  omega

theorem judgeImage_eq (acked : List Byte) : judgeImage acked =
    if acked.length < 2 then .absent
    else if (acked.getD 0 0).toNat = 255 ∧ (acked.getD 1 0).toNat = 255 then .blank
    else if acked.length < 256 then .absent
    else if (acked.getD 0 0).toNat = 0x52 ∧ (acked.getD 1 0).toNat = 0x44 ∧ (acked.getD 2 0).toNat = 1
      ∧ (acked.getD 3 0).toNat = 0 ∧ wordSum (acked.take 256) % 65536 = 65535 then .loaded
    else .bad := by
  have blank := headWord_iff acked 0 255 255 (by decide)
  have magic := headWord_iff acked 0 0x52 0x44 (by decide)
  have size := headWord_iff acked 2 1 0 (by decide)
  have sound : ¬(headWord acked 0 ≠ 0x5244 ∨ headWord acked 2 ≠ 256 ∨ wordSum (acked.take 256) % 65536 ≠ 65535) ↔
      (acked.getD 0 0).toNat = 0x52 ∧ (acked.getD 1 0).toNat = 0x44 ∧ (acked.getD 2 0).toNat = 1
      ∧ (acked.getD 3 0).toNat = 0 ∧ wordSum (acked.take 256) % 65536 = 65535 := by
    rw [not_or, not_or, not_not, not_not, not_not]
    exact (and_congr magic (and_congr_left' size)).trans (by simp only [and_assoc])
  rw [judgeImage, wordAt_eq, wordAt_eq]
  refine if_congr Iff.rfl rfl (if_congr blank rfl (if_congr Iff.rfl rfl ?_))
  rw [← ite_not]
  exact if_congr sound rfl rfl

/-! ### The values an image spells (R189) -/

/-- The value that an image spells for a field (R189). -/
def imageValue (acked : List Byte) (f : FieldId) : Nat := beNat (bytesAt acked (imagePlace f) f.width)

/-- The fields of a list stand one behind another from an offset of the image on. -/
def placedFrom (place : Nat) : List FieldId → Bool
  | [] => true
  | f :: fs => decide (imagePlace f = place) && placedFrom (place + f.width) fs

/-- The image holds the fields in their order from offset 4 on (R189). -/
theorem fieldOrder_placed : placedFrom 4 fieldOrder = true := by decide +kernel

theorem bytesAt_take {bs : List Byte} {place n : Nat} (h : place + n ≤ bs.length) :
    (bs.drop place).take n = bytesAt bs place n := by
  refine List.ext_getElem ?_ fun i hi hi' => ?_
  · rw [List.length_take, List.length_drop, bytesAt_length]
    omega
  · have hn : i < n := by rwa [bytesAt_length] at hi'
    have inside : place + i < bs.length := by omega
    simp [bytesAt, inside]

theorem splitValues_placed {fs : List FieldId} {place : Nat} (hp : placedFrom place fs = true) {bs : List Byte}
    (h : place + runWidth fs ≤ bs.length) : splitValues fs (bs.drop place) = some (fs.map fun f => (f, imageValue bs f)) := by
  induction fs generalizing place with
  | nil => rfl
  | cons f fs ih =>
    obtain ⟨hf, hfs⟩ := Bool.and_eq_true_iff.mp hp
    have here : imagePlace f = place := of_decide_eq_true hf
    have width : runWidth (f :: fs) = f.width + runWidth fs := rfl
    have more := ih hfs (by omega)
    rw [splitValues, if_neg (by rw [List.length_drop]; omega), List.drop_drop, more, bytesAt_take (by omega), ← here]
    rfl

theorem beNat_lt (bs : List Byte) : beNat bs < 256 ^ bs.length := by
  induction bs with
  | nil => exact Nat.zero_lt_one
  | cons b bs ih =>
    have digit : b.toNat * 256 ^ bs.length + 256 ^ bs.length ≤ 256 * 256 ^ bs.length := by
      rw [← Nat.succ_mul]
      exact Nat.mul_le_mul_right _ b.isLt
    rw [beNat_cons, List.length_cons, pow_succ]
    omega

set_option Elab.async false in
theorem imageValue_lt (acked : List Byte) (f : FieldId) : imageValue acked f < 256 ^ f.width := by
  have h := beNat_lt (bytesAt acked (imagePlace f) f.width)
  rwa [bytesAt_length] at h

theorem loadedRaw_whole (pr : Profile) {acked : List Byte} (h : 256 ≤ acked.length) (g : FieldId) :
    (pr.loadedRaw acked).value g = inRange g (imageValue acked g) := by
  have width : runWidth fieldOrder = 172 := by decide +kernel
  exact loadedRaw_value pr (imageValue_lt acked) (splitValues_placed fieldOrder_placed (by omega)) g

/-- Every value of a load that is no window's is the image's, settled (R39, R55, R127 to R129). -/
theorem load_value (pr : Profile) {acked : List Byte} (h : 256 ≤ acked.length) {g : FieldId} (hg : g.isWindow = false) :
    (pr.load acked).1.value g = settled (fun f => inRange f (imageValue acked f)) g := by
  have raw : (pr.load acked).1.value g = (pr.loadedRaw acked).settleAll.value g := by
    rw [load_settleAll]
    cases g with
    | window i part => cases hg
    | meter i part => cases part <;> rfl
    | _ => rfl
  rw [raw, settleAll_value]
  exact congrArg (settled · g) (funext (loadedRaw_whole pr h))

/-! ### The windows an image spells (R15) -/

/-- The window that an image spells at a place, clamped (R10, R189). -/
def imageWindow (acked : List Byte) (i : Nat) : Window :=
  Window.clamped ⟨(acked.getD (24 + 3 * i) 0).toNat, (acked.getD (25 + 3 * i) 0).toNat, (acked.getD (26 + 3 * i) 0).toNat⟩

theorem beNat_byteAt (bs : List Byte) (i : Nat) : beNat (bytesAt bs i 1) = (bs.getD i 0).toNat := by
  simp [bytesAt, beNat]

theorem loadedRaw_window (pr : Profile) {acked : List Byte} (h : 256 ≤ acked.length) (i : Fin 4) :
    (pr.loadedRaw acked).windows[i].clamped = imageWindow acked i.val := by
  have part (p : WindowPart) := (loadedRaw_whole pr h (.window i p)).trans (beNat_byteAt acked _)
  have swap (k : Nat) : 24 + 3 * i.val + k = 24 + k + 3 * i.val := by omega
  refine congrArg Window.clamped (window_ext (part .first) ((part .count).trans ?_) ((part .guard).trans ?_))
  · exact congrArg (fun k => (acked.getD k 0).toNat) (swap 1)
  · exact congrArg (fun k => (acked.getD k 0).toNat) (swap 2)

/-- The windows of a load are those taken (R15). -/
theorem load_windows (pr : Profile) (acked : List Byte) :
    (pr.load acked).1.windows.toList = (takeWindows [] (pr.loadedRaw acked).windows.toList).1 := by
  have hget := takeWindows_get [] (pr.loadedRaw acked).windows.toList
  have hlen : (pr.loadedWindows acked).1.length = 4 := by simpa [Profile.loadedWindows] using hget.1
  refine Eq.trans ?_ (rfl : (pr.loadedWindows acked).1 = _)
  rw [Profile.load_eq]
  refine List.ext_getElem (by simp [hlen]) fun k hk hk' => ?_
  simp [List.getD_eq_getElem?_getD, List.getElem?_eq_getElem hk']

set_option Elab.async false in
/-- Some window before a place satisfies a test. -/
theorem any_take_iff (ws : Vector Window 4) (i : Fin 4) (test : Window → Bool) :
    (ws.toList.take i.val).any test = true ↔ ∃ j : Fin 4, j < i ∧ test ws[j] = true := by
  rw [List.any_eq_true]
  constructor
  · rintro ⟨w, hw, ht⟩
    obtain ⟨j, hj, rfl⟩ := List.mem_take_iff_getElem.mp hw
    rw [lt_min_iff] at hj
    exact ⟨⟨j, hj.1.trans i.isLt⟩, hj.1, by simpa using ht⟩
  · rintro ⟨j, hj, ht⟩
    refine ⟨ws[j], List.mem_take_iff_getElem.mpr ⟨j.val, ?_, ?_⟩, ht⟩
    · simpa using hj
    · simp

/-- The window of an image at a place shares a guard port with one taken before it (R15). -/
def Clash (acked : List Byte) (pr : Profile) (i : Fin 4) : Prop :=
  ∃ j : Fin 4, j < i ∧ (imageWindow acked i.val).overlaps pr.windows[j] = true

theorem load_window_clash (pr : Profile) {acked : List Byte} (h : 256 ≤ acked.length) (i : Fin 4) :
    (Clash acked (pr.load acked).1 i → (pr.load acked).1.windows[i] = { imageWindow acked i.val with count := 0 })
      ∧ (¬Clash acked (pr.load acked).1 i → (pr.load acked).1.windows[i] = imageWindow acked i.val) := by
  have taken := Profile.load_window pr acked i
  rw [Window.taken, loadedRaw_window pr h] at taken
  have clash := any_take_iff (pr.load acked).1.windows i (imageWindow acked i.val).overlaps
  exact ⟨fun hc => taken.trans (if_pos (clash.mpr hc)), fun hc => taken.trans (if_neg fun ha => hc (clash.mp ha))⟩

theorem load_conflict (pr : Profile) {acked : List Byte} (h : 256 ≤ acked.length) :
    (pr.load acked).2 = true ↔ ∃ i, Clash acked (pr.load acked).1 i := by
  have conflict := takeWindows_conflict [] (pr.loadedRaw acked).windows.toList
  have at_place (i : Fin 4) : ((pr.load acked).1.windows.toList.take i.val).any
      ((pr.loadedRaw acked).windows[i].clamped.overlaps ·) = true ↔ Clash acked (pr.load acked).1 i := by
    rw [loadedRaw_window pr h]
    exact any_take_iff _ i _
  rw [← load_windows] at conflict
  simp only [List.length_nil, Nat.zero_add, Vector.getElem_toList] at conflict
  refine conflict.trans ⟨fun ⟨k, hk, ha⟩ => ?_, fun ⟨i, hi⟩ => ⟨i.val, by simp, (at_place i).mpr hi⟩⟩
  exact ⟨⟨k, by simpa using hk⟩, (at_place ⟨k, by simpa using hk⟩).mp ha⟩

/-! ### The state at the end of the load (R160, R178, R179) -/

/-- A state with the parts changed that the end of the load changes before the engine starts. -/
def State.booted (s : State) (pr : Profile) (store : StoreRec) (ports : Vector PortRec 48) (led : LedRec) (cps : PerCp CtlRec)
    (ring : List Incident) : State :=
  { s with profile := pr, store := store, ports := ports, led := led, cps := cps, ring := ring }

theorem booted_setAttached_same (s : State) (pr : Profile) (store : StoreRec) (ports : Vector PortRec 48) (led : LedRec)
    (cps : PerCp CtlRec) (ring : List Incident) :
    (s.booted pr store ports led cps ring).setAttached pr.cp1Attached = s.booted pr store ports led cps ring := if_pos rfl

theorem booted_setAttached_turned (s : State) (pr : Profile) (store : StoreRec) (ports : Vector PortRec 48) (led : LedRec)
    (cps : PerCp CtlRec) (ring : List Incident) {yes : Bool} (h : yes ≠ pr.cp1Attached) :
    (s.booted pr store ports led cps ring).setAttached yes = s.booted { pr with cp1Attached := yes } store ports led
      ⟨cps.cp0, if pr.cp1Attached then detached cps.cp1 else { cps.cp1 with unread := 0, lost := 0 }⟩
      (ring.drop (ring.length - cps.cp0.unread)) := setAttached_turned h

/-- Control port 1 as the loaded attachment leaves it (R160). -/
def CtlRec.turned (c : CtlRec) (before after : Bool) : CtlRec :=
  if after = before then c else if after then { c with unread := 0, lost := 0 } else detached c

theorem CtlRec.turned_of_ne (c : CtlRec) {before after : Bool} (h : after ≠ before) :
    (if before then detached c else { c with unread := 0, lost := 0 }) = c.turned before after := by
  cases before with
  | true => cases after with
    | true => exact (h rfl).elim
    | false => rfl
  | false => cases after with
    | true => rfl
    | false => exact (h rfl).elim

set_option Elab.async false in
/-- The end of the load, the attachment still to take effect. -/
theorem stored_booted (s : State) (acked : List Byte) : ((s.stored acked).raiseAttached .storeStatus).takeModes =
    s.booted { (s.loaded acked).1 with cp1Attached := s.profile.cp1Attached }
      { s.store with condition := .ready, loadResult := judgeImage acked, windowConflict := (s.loaded acked).2 }
      ((s.stored acked).raiseAttached .storeStatus).takeModes.ports
      { s.led with phases := Vector.ofFn fun i =>
          if s.profile.leds[i] = (s.loaded acked).1.leds[i] then s.led.phases[i] else 0 }
      ⟨s.cps.cp0.raise .storeStatus,
        if s.profile.cp1Attached then s.cps.cp1.raise .storeStatus else s.cps.cp1⟩ s.ring := rfl

/-- The indicator driver after the load: a pattern that changes starts again (R167). -/
def State.ledLoaded (s : State) (pr : Profile) : LedRec :=
  { s.led with phases := Vector.ofFn fun i => if s.profile.leds[i] = pr.leds[i] then s.led.phases[i] else 0 }

/-- A port after the load, before the engine starts (R16, R179). -/
def State.portLoaded (s : State) (pr : Profile) (p : Port) : PortRec := { s.ports[p] with
  mode := pr.portBytes[p].mode
  linkUp := s.ports[p].linkUp && decide (s.profile.reverse p = pr.reverse p) }

/-- Control port 1 with STORE_STATUS told, the attachment still to take effect (log entry 19). -/
def State.cp1Told (s : State) : CtlRec := if s.profile.cp1Attached then s.cps.cp1.raise .storeStatus else s.cps.cp1

theorem endedLoad_booted (s : State) (acked : List Byte) {pr : Profile} (hpr : (s.loaded acked).1 = pr) :
    s.endedLoad acked = s.booted pr
      { s.store with condition := .ready, loadResult := judgeImage acked, windowConflict := (s.loaded acked).2 }
      (Vector.ofFn (s.portLoaded pr)) (s.ledLoaded pr)
      ⟨s.cps.cp0.raise .storeStatus, s.cp1Told.turned s.profile.cp1Attached pr.cp1Attached⟩
      (if pr.cp1Attached = s.profile.cp1Attached then s.ring else s.ring.drop (s.ring.length - s.cps.cp0.unread)) := by
  have ports : ((s.stored acked).raiseAttached .storeStatus).takeModes.ports = Vector.ofFn (s.portLoaded pr) := by
    have kept : (s.endedLoad acked).ports = ((s.stored acked).raiseAttached .storeStatus).takeModes.ports :=
      frame_setAttached _ _ .ports (notIn rfl)
    refine kept.symm.trans (vector_ext_fin fun p => ?_)
    rw [endedLoad_port, hpr]
    exact (getElem_ofFn_fin (s.portLoaded pr) p).symm
  have before := stored_booted s acked
  rw [ports, hpr] at before
  rw [State.endedLoad, before, hpr]
  by_cases h : pr.cp1Attached = s.profile.cp1Attached
  · have same : { pr with cp1Attached := s.profile.cp1Attached } = pr := by rw [← h]
    rw [same, booted_setAttached_same, if_pos h, CtlRec.turned, if_pos h]
    rfl
  · rw [if_neg h, ← CtlRec.turned_of_ne _ h]
    exact booted_setAttached_turned s { pr with cp1Attached := s.profile.cp1Attached } _ _ _ _ _ h

theorem loaded_of_loaded {s : State} {acked : List Byte} (h : judgeImage acked = .loaded) :
    s.loaded acked = s.profile.load acked := if_pos h

theorem loaded_of_ne {s : State} {acked : List Byte} (h : judgeImage acked ≠ .loaded) :
    s.loaded acked = (s.profile, false) := if_neg h

/-- A LOADED image is whole (R178). -/
theorem loaded_length {acked : List Byte} (h : judgeImage acked = .loaded) : 256 ≤ acked.length := by
  by_contra hlen
  unfold judgeImage at h
  split at h
  · cases h
  · split at h
    · cases h
    · rw [if_pos (by omega)] at h
      cases h

set_option Elab.async false in
theorem exec_loadEnd {s : State} (hOn : On s) (acked : List Byte) :
    exec (.loadEnd acked) s = .next (if s.store.condition = .loading then s.endLoad acked else s) := powered_next hOn _

/-- Settles O53. -/
theorem loadEndStartsTheEngine : Obligations.LoadEndStartsTheEngine := by
  intro s acked hOn b result
  have judged : judgeImage acked = result := judgeImage_eq acked
  refine ⟨fun hl => (exec_loadEnd hOn acked).trans (congrArg _ (if_neg hl)), fun hl hok hlen => ?_⟩
  have ends := (exec_loadEnd hOn acked).trans (congrArg Host.Outcome.next (if_pos hl))
  rw [endLoad_eq_start, becomeRunning_eq, endedLoad_booted s acked rfl, judged] at ends
  refine ⟨_, ends, ?_⟩
  intro pr clamped clash image moded told
  refine ⟨rfl, State.loaded_ok hok acked, fun hr => ?_, fun hr => ?_, rfl⟩
  · have kept := loaded_of_ne (s := s) (judged.trans_ne hr)
    exact ⟨congrArg Prod.fst kept, congrArg Prod.snd kept⟩
  · have taken := loaded_of_loaded (s := s) (judged.trans hr)
    have whole := loaded_length (judged.trans hr)
    have profile : pr = (s.profile.load acked).1 := congrArg Prod.fst taken
    refine ⟨profile, fun g hg => profile ▸ load_value s.profile whole hg, ?_, fun i => ?_⟩
    · exact (iff_of_eq (congrArg (· = true) (congrArg Prod.snd taken))).trans
        ((load_conflict s.profile whole).trans (by rw [← profile]; exact Iff.rfl))
    · have windows := load_window_clash s.profile whole i
      rw [← profile] at windows
      exact windows

end Sys2Proof.Machine
end

section
/-! PROOF. A READ_INCIDENTS response: the lost count lowered, records copied, consumed and freed (R155, R158, R159, R168). -/

namespace Sys2Proof.Machine

open Sys2Proof.Spec

/-! ### The parts of the response (R158, R159) -/

theorem updCtl_updCtl (s : State) (cp : CtlPort) (f g : CtlRec → CtlRec) :
    (s.updCtl cp f).updCtl cp g = s.updCtl cp fun c => g (f c) := by
  unfold State.updCtl
  dsimp only
  rw [PerCp.get_set_self, PerCp.set_set]

/-- A record begins: it is the next one of a response that has records left. -/
def IncidentAnswer.due (r : IncidentAnswer) : Prop := r.lowered = true ∧ 0 < r.left ∧ r.current = none

theorem beginRecord_idle (s : State) (cp : CtlPort) {r : IncidentAnswer} (h : ¬r.due) : s.beginRecord cp r = s := if_neg h

theorem beginRecord_next {s : State} {cp : CtlPort} {r : IncidentAnswer} {x : Incident} (h : r.due)
    (hx : s.ring[s.ring.length - (s.cps.get cp).unread]? = some x) :
    s.beginRecord cp r = s.respond cp x.bytes (.incidents { r with current := some x, gone := false }) := by
  have unread : s.nextUnread cp = some x := by rw [State.nextUnread, List.head?_drop, hx]
  rw [State.beginRecord, if_pos (show r.lowered = true ∧ 0 < r.left ∧ r.current = none from h), unread]

/-- A record of the response is consumed, and those that all attached cursors have passed are freed (R155, R158, R159). -/
def State.drawn (s : State) (cp : CtlPort) (r : IncidentAnswer) (gone : Bool) (response : List Byte) : State :=
  (s.updCtl cp fun c => { c with
    unread := if gone then c.unread else c.unread - 1
    response := response
    answer := .incidents { r with left := r.left - 1, current := none, gone := false } }).freeRead

set_option Elab.async false in
theorem consume_current {s : State} {cp : CtlPort} {r : IncidentAnswer} {x : Incident}
    (h : (s.cps.get cp).answer = .incidents r) (hx : r.current = some x) :
    s.consume cp = s.drawn cp r r.gone (s.cps.get cp).response := by
  rw [State.consume, h]
  exact if_neg (by rw [hx]; exact nofun)

/-- A record begun only as it is consumed. -/
theorem consume_begun (s : State) (cp : CtlPort) (r : IncidentAnswer) (x : Incident) :
    (s.respond cp x.bytes (.incidents { r with current := some x, gone := false })).consume cp =
      s.drawn cp r false ((s.cps.get cp).response ++ x.bytes) := by
  have begun : (s.respond cp x.bytes (.incidents { r with current := some x, gone := false })).cps.get cp =
      { s.cps.get cp with
        response := (s.cps.get cp).response ++ x.bytes
        answer := .incidents { r with current := some x, gone := false } } := PerCp.get_set_self ..
  rw [consume_current (congrArg CtlRec.answer begun) rfl, begun, State.drawn, State.respond, updCtl_updCtl]
  exact congrArg State.freeRead rfl

theorem consume_none {s : State} {cp : CtlPort} {r : IncidentAnswer} (h : (s.cps.get cp).answer = .incidents r)
    (hx : r.current = none) : s.consume cp = s := by
  rw [State.consume, h]
  exact if_pos hx

/-! ### The rows (R158, R168) -/

theorem exec_recordBegins {s : State} (hOn : On s) {cp : CtlPort} {r : IncidentAnswer}
    (h : (s.cps.get cp).answer = .incidents r) : exec (.readIncidents cp .recordBegins) s = .next (s.beginRecord cp r) := by
  refine (powered_next hOn _).trans ?_
  rw [h]

set_option Elab.async false in
theorem exec_incidentConsumed {s : State} (hOn : On s) {cp : CtlPort} {r : IncidentAnswer}
    (h : (s.cps.get cp).answer = .incidents r) :
    exec (.incidentConsumed cp) s = .next ((s.beginRecord cp r).consume cp) := by
  refine (powered_next hOn _).trans ?_
  rw [h]

theorem exec_lostCountLowered {s : State} (hOn : On s) {cp : CtlPort} {r : IncidentAnswer}
    (h : (s.cps.get cp).answer = .incidents r) : exec (.lostCountLowered cp) s = .next (if r.lowered then s else
      (s.updCtl cp fun c => { c with lost := c.lost - r.copiedLost }).respond cp [byte (min r.n (s.cps.get cp).unread)]
        (.incidents { r with lowered := true, left := min r.n (s.cps.get cp).unread })) := by
  refine (powered_next hOn _).trans ?_
  rw [h]

/-- A port that reads no incidents is left by the rows of a READ_INCIDENTS response. -/
theorem exec_otherAnswer {s : State} (hOn : On s) {cp : CtlPort} (h : ∀ a, (s.cps.get cp).answer ≠ .incidents a) :
    exec (.lostCountLowered cp) s = .next s ∧ exec (.incidentConsumed cp) s = .next s
      ∧ exec (.readIncidents cp .recordBegins) s = .next s := by
  refine ⟨(powered_next hOn _).trans (congrArg _ ?_), (powered_next hOn _).trans (congrArg _ ?_),
    (powered_next hOn _).trans (congrArg _ ?_)⟩
  all_goals
    split
    · next r hr => exact (h r hr).elim
    · rfl

theorem exec_incidentsBegin {s : State} (hOn : On s) {cp : CtlPort} {n : Nat}
    (h : (s.cps.get cp).answer = .waiting (.incidents n)) : exec (.readIncidents cp .begins) s = .next
      (s.respond cp [byte (s.cps.get cp).lost] (.incidents ⟨n, (s.cps.get cp).lost, false, 0, none, false⟩)) := by
  refine (powered_next hOn _).trans ?_
  rw [h]

set_option Elab.async false in
theorem exec_incidentsBegin_none {s : State} (hOn : On s) {cp : CtlPort}
    (h : ∀ n, (s.cps.get cp).answer ≠ .waiting (.incidents n)) : exec (.readIncidents cp .begins) s = .next s := by
  refine (powered_next hOn _).trans (congrArg _ ?_)
  split
  · next n hn => exact (h n hn).elim
  · rfl

theorem exec_shiftedOut {s : State} (hOn : On s) (cp : CtlPort) (m : Nat) : exec (.readIncidents cp (.shiftedOut m)) s = .next
    (if (s.cps.get cp).answer.readsIncidents then s.updCtl cp fun c => { c with out := c.sent (max c.out.length m) } else s) :=
  powered_next hOn _

theorem readsIncidents_iff (a : Answer) : a.readsIncidents = true ↔
    (∃ n, a = .waiting (.incidents n)) ∨ ∃ r, a = .incidents r := by
  constructor
  · intro h
    cases a with
    | incidents r => exact .inr ⟨r, rfl⟩
    | waiting w => cases w with
      | incidents n => exact .inl ⟨n, rfl⟩
      | _ => cases h
    | _ => cases h
  · rintro (⟨n, rfl⟩ | ⟨r, rfl⟩) <;> rfl

set_option Elab.async false in
theorem exec_readIncidents {s : State} {cp : CtlPort} (hs : Listening s cp) (ha : s.attached cp = true) {n : Nat} (hlo : 1 ≤ n)
    (hhi : n ≤ 8) : exec (.readIncidents cp (.command (BitVec.ofNat 8 n))) s =
      .next (s.answer cp .ok [] (.waiting (.incidents n))) := by
  have value : (BitVec.ofNat 8 n).toNat = n := toNat_byte (by omega)
  have named : (countArg (BitVec.ofNat 8 n)).isNone = false := by
    rw [countArg, value, if_pos ⟨hlo, hhi⟩]
    rfl
  refine (command_runs hs.1 hs.2 ?_ _).trans ?_
  · rw [ha, named]
    rfl
  · rw [value]

/-- Settles O23. -/
theorem incidentsAreReadAndConsumed : Obligations.IncidentsAreReadAndConsumed := by
  intro s cp r x hOn c upd consumed due next
  refine ⟨fun n hlo hhi hp ha => exec_readIncidents ⟨hOn, hp⟩ ha hlo hhi, fun n h => exec_incidentsBegin hOn h,
    fun h => exec_incidentsBegin_none hOn h, fun m h => ?_, fun m h => ?_, readsIncidents_iff _, fun h hl => ?_, fun h hl => ?_,
    fun h hd hn => ?_, fun h hd => ?_, fun h hx => ?_, fun h hd hn => ?_, fun h hx hd => ?_, fun h => exec_otherAnswer hOn h⟩
  · rw [exec_shiftedOut hOn, if_pos h]
    exact congrArg (fun out => Host.Outcome.next (upd { c with out := out })) (given_eq h _).symm
  · rw [exec_shiftedOut hOn, if_neg (Bool.eq_false_iff.mp h)]
  · rw [exec_lostCountLowered hOn h, if_neg (Bool.eq_false_iff.mp hl), State.respond, updCtl_updCtl]
    rfl
  · rw [exec_lostCountLowered hOn h, if_pos hl]
  · rw [exec_recordBegins hOn h, beginRecord_next hd hn.1]
    rfl
  · rw [exec_recordBegins hOn h, beginRecord_idle s cp hd]
  · have busy : ¬r.due := fun hd => Option.some_ne_none x (hx.symm.trans hd.2.2)
    rw [exec_incidentConsumed hOn h, beginRecord_idle s cp busy, consume_current h hx]
    exact congrArg (fun bytes => Host.Outcome.next (s.drawn cp r r.gone bytes)) (List.append_nil _).symm
  · exact (exec_incidentConsumed hOn h).trans (congrArg _ ((congrArg (State.consume · cp) (beginRecord_next hd hn.1)).trans
      (consume_begun s cp r x)))
  · rw [exec_incidentConsumed hOn h, beginRecord_idle s cp hd, consume_none h hx]

end Sys2Proof.Machine
end

section
/-! PROOF. Fields that stand one behind another, and a probe that comes back recognised with the fields it left with (R66,
R79 to R81, R183 to R185). -/

namespace Sys2Proof.Machine

open Sys2Proof.Spec

/-! ### Fields one behind another (R185) -/

/-- The bytes of fields given by width and value, one behind another. -/
def fieldsOf (fields : List (Nat × Nat)) : List Byte := fields.flatMap fun f => beBytes f.1 f.2

/-- Where the field of an index begins. -/
def placeOf (fields : List (Nat × Nat)) (k : Nat) : Nat := ((fields.take k).map Prod.fst).sum

theorem fieldsOf_nil : fieldsOf [] = [] := rfl

theorem fieldsOf_cons (w v : Nat) (fields : List (Nat × Nat)) : fieldsOf ((w, v) :: fields) = beBytes w v ++ fieldsOf fields := rfl

theorem fieldsOf_append (xs ys : List (Nat × Nat)) : fieldsOf (xs ++ ys) = fieldsOf xs ++ fieldsOf ys := List.flatMap_append

theorem fieldsOf_length (fields : List (Nat × Nat)) : (fieldsOf fields).length = (fields.map Prod.fst).sum := by
  rw [fieldsOf, List.length_flatMap]
  exact congrArg List.sum (List.map_congr_left fun f _ => beBytes_length f.1 f.2)

theorem beBytes_one (v : Nat) : beBytes 1 v = [BitVec.ofNat 8 v] := by
  rw [beBytes, pow_zero, Nat.div_one]
  rfl

set_option Elab.async false in
theorem bytesAt_section {before part after : List Byte} {place n : Nat} (hp : before.length = place) (hn : part.length = n) :
    bytesAt (before ++ (part ++ after)) place n = part := by
  subst hp hn
  have fits : before.length + part.length ≤ (before ++ (part ++ after)).length := by
    rw [List.length_append, List.length_append]
    omega
  rw [← bytesAt_take fits, List.drop_left, List.take_left]

theorem bytesAt_skip {before after : List Byte} {place : Nat} (hp : before.length = place) (i n : Nat) :
    bytesAt (before ++ after) (place + i) n = bytesAt after i n := by
  subst hp
  refine List.map_congr_left fun k _ => ?_
  rw [List.getD_append_right _ _ _ _ (by omega)]
  congr 1
  omega

theorem bytesAt_bytesAt (bs : List Byte) {width place n : Nat} (h : place + n ≤ width) :
    bytesAt (bytesAt bs 0 width) place n = bytesAt bs place n := by
  refine List.map_congr_left fun k hk => ?_
  have inside : place + k < width := by
    have := List.mem_range.mp hk
    omega
  simp [bytesAt, inside]

/-- A field reads in its place as the value it carries. -/
theorem field_read {fields : List (Nat × Nat)} (k : Nat) {w v place : Nat} (h : fields[k]? = some (w, v))
    (hp : placeOf fields k = place) (hv : v < 256 ^ w) (after : List Byte) :
    beNat (bytesAt (fieldsOf fields ++ after) place w) = v := by
  obtain ⟨hk, hfield⟩ := List.getElem?_eq_some_iff.mp h
  have split : fieldsOf fields ++ after =
      fieldsOf (fields.take k) ++ (beBytes w v ++ (fieldsOf (fields.drop (k + 1)) ++ after)) := by
    conv_lhs => rw [← List.take_append_drop k fields, List.drop_eq_getElem_cons hk, hfield]
    rw [fieldsOf_append, fieldsOf_cons]
    simp only [List.append_assoc]
  rw [split, bytesAt_section ((fieldsOf_length _).trans hp) (beBytes_length w v), beNat_beBytes, Nat.mod_eq_of_lt hv]

/-! ### A probe and its copy that comes back (R66, R184) -/

/-- The fields of a probe's payload. -/
def payloadFields (chassis : BitVec 32) (run : BitVec 4) (egress : Port) (sequence emit epoch : Word16) : List (Nat × Nat) :=
  [(4, chassis.toNat), (1, 16 + run.toNat), (1, egress.val), (2, sequence.toNat), (2, emit.toNat), (2, epoch.toNat)]

theorem probePayload_fields (chassis : BitVec 32) (run : BitVec 4) (egress : Port) (sequence emit epoch : Word16) :
    probePayload chassis run egress sequence emit epoch = fieldsOf (payloadFields chassis run egress sequence emit epoch) := by
  simp only [probePayload, payloadFields, fieldsOf_cons, fieldsOf_nil, beBytes_one, List.append_assoc, List.cons_append,
    List.nil_append, List.append_nil]

/-- The addresses of a probe. -/
def probeRoute (pr : Profile) : List (Nat × Nat) := [(6, pr.groupAddress.toNat), (6, pr.chassisAddress.toNat)]

/-- The tag of a probe. -/
def probeTag (pr : Profile) (f : FabricPort) : List (Nat × Nat) := [(2, pr.tapTagType.toNat), (1, 0x80), (1, f.val)]

/-- A probe behind its tag, before the padding: type, payload and check word. -/
def probeBody (pr : Profile) (payload : List Byte) : List Byte :=
  beBytes 2 pr.probeType.toNat ++ (payload ++ beBytes 2 (checkWord payload))

set_option Elab.async false in
theorem probeFrame_parts (pr : Profile) (f : FabricPort) (payload : List Byte) : probeFrame pr f payload =
    fieldsOf (probeRoute pr) ++ (fieldsOf (probeTag pr f) ++ (probeBody pr payload ++ List.replicate 32 0)) := by
  simp only [probeFrame, probeRoute, probeTag, probeBody, fieldsOf_cons, fieldsOf_nil, beBytes_one, List.append_assoc,
    List.cons_append, List.nil_append, List.append_nil]
  rfl

theorem probeRoute_length (pr : Profile) : (fieldsOf (probeRoute pr)).length = 12 := fieldsOf_length _

theorem probeTag_length (pr : Profile) (f : FabricPort) : (fieldsOf (probeTag pr f)).length = 4 := fieldsOf_length _

theorem probeBody_length (pr : Profile) {payload : List Byte} (h : payload.length = 12) :
    (probeBody pr payload).length = 16 := by
  rw [probeBody, List.length_append, List.length_append, beBytes_length, beBytes_length, h]

/-- The head of a probe that comes back with another tag. -/
theorem headBytes_back (pr : Profile) (f : FabricPort) {payload tag fcs : List Byte} (hp : payload.length = 12)
    (ht : tag.length = 4) (hf : fcs.length = 4) (good : Bool) :
    headBytes ⟨(probeFrame pr f payload).take 12 ++ tag ++ (probeFrame pr f payload).drop 16 ++ fcs, 68, good⟩ =
      bytesAt (fieldsOf (probeRoute pr) ++ (probeBody pr payload ++ (List.replicate 32 0 ++ fcs))) 0 96 := by
  have route := probeRoute_length pr
  have tagged := probeTag_length pr f
  have body := probeBody_length pr hp
  have head : (probeFrame pr f payload).take 12 = fieldsOf (probeRoute pr) := by
    rw [probeFrame_parts, List.take_left' route]
  have rest : (probeFrame pr f payload).drop 16 = probeBody pr payload ++ List.replicate 32 0 := by
    rw [probeFrame_parts, ← List.append_assoc, List.drop_left' (by rw [List.length_append, route, tagged])]
  have first : (fieldsOf (probeRoute pr) ++ tag ++ (probeBody pr payload ++ List.replicate 32 0) ++ fcs).take 12 =
      fieldsOf (probeRoute pr) := by
    rw [List.append_assoc, List.append_assoc, List.take_left' route]
  have behind : (fieldsOf (probeRoute pr) ++ tag ++ (probeBody pr payload ++ List.replicate 32 0) ++ fcs).drop 16 =
      probeBody pr payload ++ (List.replicate 32 0 ++ fcs) := by
    rw [List.append_assoc, List.drop_left' (by rw [List.length_append, route, ht]), List.append_assoc]
  have whole : (fieldsOf (probeRoute pr) ++ (probeBody pr payload ++ (List.replicate 32 0 ++ fcs))).length = 64 := by
    simp only [List.length_append, List.length_replicate, route, body, hf]
  rw [headBytes, head, rest]
  dsimp only
  rw [first, behind, List.take_of_length_le (by rw [whole])]

/-- The fields of a probe as sent: addresses, tag, type, payload, check word (R184). -/
def probeFields (pr : Profile) (f : FabricPort) (payload : List (Nat × Nat)) : List (Nat × Nat) :=
  probeRoute pr ++ probeTag pr f ++ [(2, pr.probeType.toNat)] ++ payload ++ [(2, checkWord (fieldsOf payload))]

/-- The fields of a probe that came back, its tag taken out (R23). -/
def backFields (pr : Profile) (payload : List (Nat × Nat)) : List (Nat × Nat) :=
  probeRoute pr ++ [(2, pr.probeType.toNat)] ++ payload ++ [(2, checkWord (fieldsOf payload))]

set_option Elab.async false in
theorem probeFrame_fields (pr : Profile) (f : FabricPort) (payload : List (Nat × Nat)) :
    probeFrame pr f (fieldsOf payload) = fieldsOf (probeFields pr f payload) ++ List.replicate 32 0 := by
  rw [probeFrame_parts, probeFields, probeBody]
  simp only [fieldsOf_append, fieldsOf_cons, fieldsOf_nil, List.append_assoc, List.append_nil]

theorem back_fields (pr : Profile) (payload : List (Nat × Nat)) (after : List Byte) :
    fieldsOf (probeRoute pr) ++ (probeBody pr (fieldsOf payload) ++ after) = fieldsOf (backFields pr payload) ++ after := by
  rw [backFields, probeBody]
  simp only [fieldsOf_append, fieldsOf_cons, fieldsOf_nil, List.append_assoc, List.append_nil]

theorem checkWord_lt (payload : List Byte) : checkWord payload < 65536 := Nat.mod_lt _ (by decide)

/-- A payload and its check word sum to all ones (R66). -/
theorem payload_checked {payload : List Byte} (h : payload.length = 12) :
    wordSum (payload ++ beBytes 2 (checkWord payload)) % 65536 = 65535 := wordSum_checked (by rw [h])

set_option Elab.async false in
/-- A word that carries a 16-bit value. -/
theorem word_read {head : List Byte} {i : Nat} {x : Word16} (h : beNat (bytesAt head i 2) = x.toNat) :
    BitVec.ofNat 16 (wordAt head i) = x := by
  rw [wordAt, h, BitVec.ofNat_toNat, BitVec.setWidth_eq]

/-- Settles O43. -/
theorem probesAreRecognisedWhenTheyReturn : Obligations.ProbesAreRecognisedWhenTheyReturn := by
  intro pr f p run sequence emit epoch tag fcs good payload frame back
  have hpayload : payload = fieldsOf (payloadFields pr.chassisNumber run p sequence emit epoch) := probePayload_fields ..
  have length : payload.length = 12 := probePayload_length ..
  have sent : frame = fieldsOf (probeFields pr f (payloadFields pr.chassisNumber run p sequence emit epoch))
      ++ List.replicate 32 0 := (congrArg (probeFrame pr f) hpayload).trans (probeFrame_fields pr f _)
  have parts : frame = fieldsOf (probeRoute pr) ++ (fieldsOf (probeTag pr f) ++ (probeBody pr payload ++ List.replicate 32 0)) :=
    probeFrame_parts pr f payload
  have route := probeRoute_length pr
  have tagged := probeTag_length pr f
  have whole : frame.length = 64 := probeFrame_length pr f length
  refine ⟨whole, ?_, ?_, ?_, ?_, ?_, ?_, ?_, ?_, fun ht hf => ?_⟩
  · rw [sent]
    exact field_read 0 rfl rfl pr.groupAddress.isLt _
  · rw [sent]
    exact field_read 1 rfl rfl pr.chassisAddress.isLt _
  · rw [sent]
    exact field_read 2 rfl rfl pr.tapTagType.isLt _
  · have split : frame = (fieldsOf (probeRoute pr) ++ beBytes 2 pr.tapTagType.toNat) ++ ([0x80, BitVec.ofNat 8 f.val]
        ++ (probeBody pr payload ++ List.replicate 32 0)) := by
      rw [parts, probeTag]
      simp only [fieldsOf_cons, fieldsOf_nil, beBytes_one, List.append_assoc, List.cons_append, List.nil_append]
      rfl
    rw [split]
    exact bytesAt_section (by rw [List.length_append, route, beBytes_length]) rfl
  · rw [sent]
    exact field_read 5 rfl rfl pr.probeType.isLt _
  · have split : frame = (fieldsOf (probeRoute pr) ++ (fieldsOf (probeTag pr f) ++ beBytes 2 pr.probeType.toNat))
        ++ (payload ++ (beBytes 2 (checkWord payload) ++ List.replicate 32 0)) := by
      rw [parts, probeBody]
      simp only [List.append_assoc]
    rw [split, bytesAt_section (by rw [List.length_append, List.length_append, route, tagged, beBytes_length]) length]
  · have split : frame = (fieldsOf (probeRoute pr) ++ (fieldsOf (probeTag pr f) ++ beBytes 2 pr.probeType.toNat))
        ++ ((payload ++ beBytes 2 (checkWord payload)) ++ List.replicate 32 0) := by
      rw [parts, probeBody]
      simp only [List.append_assoc]
    rw [split, bytesAt_section (by rw [List.length_append, List.length_append, route, tagged, beBytes_length])
      (by rw [List.length_append, length, beBytes_length]), payload_checked length]
  · have split : frame = (fieldsOf (probeRoute pr) ++ (fieldsOf (probeTag pr f) ++ probeBody pr payload))
        ++ (List.replicate 32 0 ++ []) := by
      rw [parts, List.append_nil]
      simp only [List.append_assoc]
    rw [split, bytesAt_section (by rw [List.length_append, List.length_append, route, tagged, probeBody_length pr length])
      List.length_replicate]
  · have head : headBytes back = bytesAt (fieldsOf (backFields pr (payloadFields pr.chassisNumber run p sequence emit epoch))
        ++ (List.replicate 32 0 ++ fcs)) 0 96 := by
      rw [← back_fields, ← hpayload]
      exact headBytes_back pr f length ht hf good
    have read (k : Nat) {w v place : Nat} (h : (backFields pr (payloadFields pr.chassisNumber run p sequence emit epoch))[k]? = some (w, v))
        (hk : placeOf (backFields pr (payloadFields pr.chassisNumber run p sequence emit epoch)) k = place) (hv : v < 256 ^ w)
        (hw : place + w ≤ 96) : beNat (bytesAt (headBytes back) place w) = v := by
      rw [head, bytesAt_bytesAt _ hw]
      exact field_read k h hk hv _
    have version : ((headBytes back).getD 18 0).toNat = 16 + run.toNat := by
      rw [← beNat_byteAt]
      exact read 4 rfl rfl (by have := run.isLt; omega) (by decide)
    have egress : ((headBytes back).getD 19 0).toNat = p.val := by
      rw [← beNat_byteAt]
      exact read 5 rfl rfl (by have := p.isLt; omega) (by decide)
    have candidate : isCandidate pr (headBytes back) = true := by
      rw [isCandidate, Bool.and_eq_true, decide_eq_true_eq, decide_eq_true_eq]
      exact ⟨read 0 rfl rfl pr.groupAddress.isLt (by decide), read 2 rfl rfl pr.probeType.isLt (by decide)⟩
    have checked : wordSum (bytesAt (headBytes back) 14 14) % 65536 = 65535 := by
      have split : headBytes back = bytesAt ((fieldsOf (probeRoute pr) ++ beBytes 2 pr.probeType.toNat)
          ++ ((payload ++ beBytes 2 (checkWord payload)) ++ (List.replicate 32 0 ++ fcs))) 0 96 := by
        rw [headBytes_back pr f length ht hf good, probeBody]
        simp only [List.append_assoc]
      rw [split, bytesAt_bytesAt _ (by decide), bytesAt_section (by rw [List.length_append, route, beBytes_length])
        (by rw [List.length_append, length, beBytes_length]), payload_checked length]
    have sound : HeadSound (headBytes back) := ⟨checked, by
      rw [headVersion, version]
      have := run.isLt
      omega⟩
    have chassis : headChassis (headBytes back) = pr.chassisNumber.toNat :=
      read 3 rfl rfl pr.chassisNumber.isLt (by decide)
    have port : portArg ((headBytes back).getD 19 0) = some p :=
      (dif_pos (egress.trans_lt p.isLt)).trans (congrArg some (Fin.ext egress))
    refine ⟨?_, ?_, ?_, ?_, ?_, ?_⟩
    · refine decide_eq_true ?_
      change (frame.take 12 ++ tag ++ frame.drop 16 ++ fcs).length = min 68 100
      simp only [List.length_append, List.length_take, List.length_drop, whole, ht, hf]
      rfl
    · refine (frameKind_sound candidate sound).trans ((if_neg fun hn => hn chassis).trans ?_)
      rw [port]
    · apply BitVec.eq_of_toNat_eq
      rw [headRun, BitVec.toNat_setWidth, version]
      have := run.isLt
      omega
    · exact word_read (read 6 rfl rfl sequence.isLt (by decide))
    · exact word_read (read 7 rfl rfl emit.isLt (by decide))
    · exact word_read (read 8 rfl rfl epoch.isLt (by decide))

end Sys2Proof.Machine
end

section
/-! PROOF. The layouts of what the control ports shift out (R8, R183, R185 to R189). -/

namespace Sys2Proof.Machine

open Sys2Proof.Spec

/-! ### One byte and its value (R183, R185) -/

theorem beBytes_byte (b : Byte) : [b] = beBytes 1 b.toNat := by
  rw [beBytes_one, BitVec.ofNat_toNat, BitVec.setWidth_eq]

theorem byte_toNat {v : Nat} (h : v < 256) : (byte v).toNat = v := toNat_byte h

theorem flagByte_toNat (b : Bool) : (flagByte b).toNat = if b then 1 else 0 := by cases b <;> rfl

/-- A guard port as a byte reads as its index, an absent one as 255 (R183). -/
theorem portByte_toNat (x : Option Port) : (portByte x).toNat = (x.map (·.val)).getD 255 := by
  cases x with
  | none => rfl
  | some p => exact byte_toNat (p.isLt.trans (by decide))

/-! ### READ_IDENT, READ_STATUS and READ_COUNTER (R187) -/

/-- The fields of READ_IDENT. -/
def State.identFields (s : State) : List (Nat × Nat) :=
  [(5, s.unitNumber.toNat), (1, (byte s.runNumber.toNat).toNat), (1, s.store.condition.code.toNat),
    (1, s.store.loadResult.code.toNat), (1, (flagByte s.store.windowConflict).toNat), (1, s.store.saveResult.code.toNat)]

theorem identBytes_fields (s : State) : s.identBytes = fieldsOf s.identFields := by
  simp only [State.identBytes, State.identFields, fieldsOf_cons, fieldsOf_nil, ← beBytes_byte, List.cons_append,
    List.nil_append]

/-- The fields of a tap state. -/
def TapRec.fields (x : TapRec) : List (Nat × Nat) :=
  [(1, (flagByte x.linkUp).toNat), (1, (byte x.fifo.length).toNat), (1, (byte x.queue.length).toNat), (2, x.unmapped),
    (2, x.nonFlood)]

theorem TapRec.bytes_fields (x : TapRec) : x.bytes = fieldsOf x.fields := by
  simp only [TapRec.bytes, TapRec.fields, fieldsOf_cons, fieldsOf_nil, ← beBytes_byte, List.cons_append, List.nil_append,
    List.append_nil]

/-- The fields of a poll state. -/
def PollRec.fields (x : PollRec) : List (Nat × Nat) :=
  [(1, x.phase.code.toNat), (1, (flagByte x.silent).toNat), (2, x.age)]

theorem PollRec.bytes_fields (x : PollRec) : x.bytes = fieldsOf x.fields := by
  simp only [PollRec.bytes, PollRec.fields, fieldsOf_cons, fieldsOf_nil, ← beBytes_byte, List.cons_append, List.nil_append,
    List.append_nil]

/-- The fields of READ_STATUS before the tap states. -/
def State.statusHead (s : State) : List (Nat × Nat) :=
  [(1, (flagByte s.running).toNat), (2, s.epoch.toNat), (1, (portByte s.firstDeferred).toNat), (1, (byte s.probes.length).toNat),
    (1, (byte s.slotIndex.val).toNat), (2, s.seqCounter.toNat), (1, (byte s.runNumber.toNat).toNat)]

/-- The fields of READ_STATUS behind the poll states. -/
def State.statusTail (s : State) : List (Nat × Nat) :=
  [(3, s.classLevel), (1, (flagByte s.classTimer.isSome).toNat), (1, s.find.code.toNat), (1, (ownerByte s.holdOwner).toNat)]

theorem statusBytes_parts (s : State) : s.statusBytes = fieldsOf s.statusHead ++ (fieldsOf s.taps.a.fields
    ++ (fieldsOf s.taps.b.fields ++ (fieldsOf s.polls.a.fields ++ (fieldsOf s.polls.b.fields ++ fieldsOf s.statusTail)))) := by
  simp only [State.statusBytes, State.statusHead, State.statusTail, TapRec.bytes_fields, PollRec.bytes_fields, fieldsOf_cons,
    fieldsOf_nil, ← beBytes_byte, List.cons_append, List.nil_append, List.append_assoc, List.append_nil]

theorem TapRec.fields_length (x : TapRec) : (fieldsOf x.fields).length = 7 := fieldsOf_length _

theorem PollRec.fields_length (x : PollRec) : (fieldsOf x.fields).length = 4 := fieldsOf_length _

theorem statusHead_length (s : State) : (fieldsOf s.statusHead).length = 9 := fieldsOf_length _

theorem statusTail_length (s : State) : (fieldsOf s.statusTail).length = 6 := fieldsOf_length _

/-- The fields of READ_COUNTER. -/
def Counter.fields (c : Counter) : List (Nat × Nat) :=
  [(1, (byte c.kind.code).toNat), (1, (portByte c.filter).toNat), (4, c.count)]

set_option Elab.async false in
theorem Counter.bytes_fields (c : Counter) : c.bytes = fieldsOf c.fields := by
  simp only [Counter.bytes, Counter.fields, fieldsOf_cons, fieldsOf_nil, ← beBytes_byte, List.cons_append, List.nil_append,
    List.append_nil]

theorem censusKinds_code (k : CensusKind) : censusKinds[(byte k.code).toNat]? = some k := by cases k <;> rfl

/-- A field of a whole response. -/
theorem field_whole {bs : List Byte} {fields : List (Nat × Nat)} (hb : bs = fieldsOf fields) (k : Nat) {w v place : Nat}
    (h : fields[k]? = some (w, v)) (hp : placeOf fields k = place) (hv : v < 256 ^ w) : beNat (bytesAt bs place w) = v := by
  rw [hb, ← List.append_nil (fieldsOf fields)]
  exact field_read k h hp hv []

/-- A field of one byte. -/
theorem field_byte {bs : List Byte} {fields : List (Nat × Nat)} (hb : bs = fieldsOf fields) (k : Nat) {b : Byte} {place v : Nat}
    (h : fields[k]? = some (1, b.toNat)) (hp : placeOf fields k = place) (hv : b.toNat = v) : beNat (bytesAt bs place 1) = v :=
  (field_whole hb k h hp b.isLt).trans hv

/-- Fields that stand from a place of a response on. -/
def StandAt (bs : List Byte) (place : Nat) (fields : List (Nat × Nat)) : Prop :=
  ∃ before after, bs = before ++ (fieldsOf fields ++ after) ∧ before.length = place

theorem StandAt.read {bs : List Byte} {start : Nat} {fields : List (Nat × Nat)} (hb : StandAt bs start fields) (k : Nat)
    {w v place : Nat} (h : fields[k]? = some (w, v)) (hp : start + placeOf fields k = place) (hv : v < 256 ^ w) :
    beNat (bytesAt bs place w) = v := by
  obtain ⟨before, after, rfl, hlen⟩ := hb
  rw [← hp, bytesAt_skip hlen]
  exact field_read k h rfl hv after

theorem StandAt.readByte {bs : List Byte} {start : Nat} {fields : List (Nat × Nat)} (hb : StandAt bs start fields) (k : Nat)
    {b : Byte} {place v : Nat} (h : fields[k]? = some (1, b.toNat)) (hp : start + placeOf fields k = place) (hv : b.toNat = v) :
    beNat (bytesAt bs place 1) = v := (hb.read k h hp b.isLt).trans hv

theorem StandAt.first {bs after : List Byte} {fields : List (Nat × Nat)} (h : bs = fieldsOf fields ++ after) :
    StandAt bs 0 fields := ⟨[], after, h, rfl⟩

/-- The next fields stand where those before them end. -/
theorem standAt_next {bs before after : List Byte} {start place : Nat} {fields : List (Nat × Nat)}
    (hb : bs = before ++ after) (hlen : before.length = start) (h : StandAt after place fields) :
    StandAt bs (start + place) fields := by
  obtain ⟨front, rest, rfl, hfront⟩ := h
  exact ⟨before ++ front, rest, by rw [hb, List.append_assoc], by rw [List.length_append, hlen, hfront]⟩

/-- A tap state in its place (R21, R187). -/
theorem tap_layout {bs : List Byte} {k : Nat} {x : TapRec} (h : StandAt bs k x.fields) (hx : x.ok) :
    beNat (bytesAt bs k 1) = (if x.linkUp then 1 else 0) ∧ beNat (bytesAt bs (k + 1) 1) = x.fifo.length
      ∧ beNat (bytesAt bs (k + 2) 1) = x.queue.length ∧ beNat (bytesAt bs (k + 3) 2) = x.unmapped
      ∧ beNat (bytesAt bs (k + 5) 2) = x.nonFlood := by
  obtain ⟨fifo, -, queue, -, -, unmapped, nonFlood⟩ := hx
  exact ⟨h.readByte 0 rfl rfl (flagByte_toNat _), h.readByte 1 rfl rfl (byte_toNat (fifo.trans_lt (by decide))),
    h.readByte 2 rfl rfl (byte_toNat (queue.trans_lt (by decide))), h.read 3 rfl rfl (Nat.lt_succ_of_le unmapped),
    h.read 4 rfl rfl (Nat.lt_succ_of_le nonFlood)⟩

/-- A poll state in its place (R153, R187). -/
theorem poll_layout {bs : List Byte} {k : Nat} {x : PollRec} (h : StandAt bs k x.fields) (hx : x.age ≤ 65535) :
    beNat (bytesAt bs k 1) = x.phase.code.toNat ∧ beNat (bytesAt bs (k + 1) 1) = (if x.silent then 1 else 0)
      ∧ beNat (bytesAt bs (k + 2) 2) = x.age :=
  ⟨h.readByte 0 rfl rfl rfl, h.readByte 1 rfl rfl (flagByte_toNat _), h.read 2 rfl rfl (Nat.lt_succ_of_le hx)⟩

/-- Where the parts of READ_STATUS stand (R187). -/
theorem status_places (s : State) : StandAt s.statusBytes 0 s.statusHead ∧ StandAt s.statusBytes 9 s.taps.a.fields
    ∧ StandAt s.statusBytes 16 s.taps.b.fields ∧ StandAt s.statusBytes 23 s.polls.a.fields
    ∧ StandAt s.statusBytes 27 s.polls.b.fields ∧ StandAt s.statusBytes 31 s.statusTail := by
  have parts := statusBytes_parts s
  have head := statusHead_length s
  have tapA := s.taps.a.fields_length
  have tapB := s.taps.b.fields_length
  have pollA := s.polls.a.fields_length
  have pollB := s.polls.b.fields_length
  exact ⟨.first parts, standAt_next parts head (.first rfl), standAt_next parts head (standAt_next rfl tapA (.first rfl)),
    standAt_next parts head (standAt_next rfl tapA (standAt_next rfl tapB (.first rfl))),
    standAt_next parts head (standAt_next rfl tapA (standAt_next rfl tapB (standAt_next rfl pollA (.first rfl)))),
    standAt_next parts head (standAt_next rfl tapA (standAt_next rfl tapB (standAt_next rfl pollA (standAt_next rfl pollB
      (.first (List.append_nil _).symm)))))⟩

theorem statusBytes_length (s : State) : s.statusBytes.length = 37 := by
  rw [statusBytes_parts]
  simp only [List.length_append, statusHead_length, statusTail_length, TapRec.fields_length, PollRec.fields_length]

/-! ### Incident records (R186) -/

/-- The code of a record's state, 0xFF when absent. -/
def stateByte : Option PState → Byte
  | none => 0xFF
  | some st => byte st.code

theorem stateByte_toNat (x : Option PState) : (stateByte x).toNat = (x.map (·.code)).getD 255 := by
  cases x with
  | none => rfl
  | some st => cases st <;> rfl

/-- The fields of an incident record. -/
def Incident.fields (x : Incident) : List (Nat × Nat) :=
  [(2, x.number.toNat), (4, x.time.toNat), (1, (byte x.cause.code).toNat), (1, (portByte x.port).toNat),
    (1, (portByte x.partner).toNat), (1, (byte x.action.code).toNat), (1, (stateByte x.state).toNat), (2, x.level),
    (1, (byte x.penalty).toNat), (2, x.hold), (2, x.epoch.toNat), (2, (x.loopDelay.map (·.toNat)).getD 0),
    (1, (purposeByte x.purpose).toNat)]

set_option Elab.async false in
theorem Incident.bytes_fields (x : Incident) : x.bytes = fieldsOf x.fields := by
  obtain ⟨number, time, cause, port, partner, action, state, level, penalty, hold, epoch, delay, purpose⟩ := x
  cases state <;> cases delay <;>
    simp only [Incident.bytes, Incident.fields, fieldsOf_cons, fieldsOf_nil, ← beBytes_byte, stateByte, Option.map_none,
      Option.map_some, Option.getD_none, Option.getD_some, List.cons_append, List.nil_append, List.append_assoc,
      List.append_nil]

theorem Cause.code_le (c : Cause) : c.code ≤ 10 := by
  cases c with
  | ladder l => cases l <;> decide
  | _ => decide

theorem incident_layout (x : Incident) (hl : x.level ≤ 65535) (hp : x.penalty ≤ 7) (hh : x.hold ≤ 65535) :
    let b := x.bytes
    b.length = 21 ∧ beNat (bytesAt b 0 2) = x.number.toNat ∧ beNat (bytesAt b 2 4) = x.time.toNat
      ∧ beNat (bytesAt b 6 1) = x.cause.code
      ∧ beNat (bytesAt b 7 1) = (x.port.map (·.val)).getD 255 ∧ beNat (bytesAt b 8 1) = (x.partner.map (·.val)).getD 255
      ∧ beNat (bytesAt b 9 1) = x.action.code ∧ beNat (bytesAt b 10 1) = (x.state.map (·.code)).getD 255
      ∧ beNat (bytesAt b 11 2) = x.level ∧ beNat (bytesAt b 13 1) = x.penalty ∧ beNat (bytesAt b 14 2) = x.hold
      ∧ beNat (bytesAt b 16 2) = x.epoch.toNat ∧ beNat (bytesAt b 18 2) = (x.loopDelay.map (·.toNat)).getD 0
      ∧ beNat (bytesAt b 20 1) = (purposeByte x.purpose).toNat := by
  have hb := x.bytes_fields
  have action : x.action.code < 256 := by cases x.action <;> decide
  have delay : (x.loopDelay.map (·.toNat)).getD 0 < 256 ^ 2 := by
    cases x.loopDelay with
    | none => decide
    | some d => exact d.isLt
  exact ⟨incident_bytes_length x, field_whole hb 0 rfl rfl x.number.isLt, field_whole hb 1 rfl rfl x.time.isLt,
    field_byte hb 2 rfl rfl (byte_toNat (x.cause.code_le.trans_lt (by decide))), field_byte hb 3 rfl rfl (portByte_toNat _),
    field_byte hb 4 rfl rfl (portByte_toNat _), field_byte hb 5 rfl rfl (byte_toNat action),
    field_byte hb 6 rfl rfl (stateByte_toNat _), field_whole hb 7 rfl rfl (Nat.lt_succ_of_le hl),
    field_byte hb 8 rfl rfl (byte_toNat (hp.trans_lt (by decide))), field_whole hb 9 rfl rfl (Nat.lt_succ_of_le hh),
    field_whole hb 10 rfl rfl x.epoch.isLt, field_whole hb 11 rfl rfl delay, field_byte hb 12 rfl rfl rfl⟩

/-! ### FIND results (R188) -/

theorem placeBytes_eq (x : Option Nat) : placeBytes x = beBytes 2 (x.getD 65535) := by
  cases x with
  | none => decide
  | some n => rfl

/-- The fields of the head of a FIND result. -/
def FindResult.headFields (r : FindResult) : List (Nat × Nat) :=
  [(1, (2 : Byte).toNat), (1, (portByte r.target).toNat), (1, (starterByte r.starter).toNat), (2, r.count),
    (2, r.first.getD 65535), (1, (byte r.copies.length).toNat)]

/-- The fields of a copy in a FIND result. -/
def copyFields (x : Nat × FpEntry) : List (Nat × Nat) :=
  [(2, x.1), (3, x.2.tag.toNat), (1, (byte x.2.first.val).toNat), (4, x.2.firstTime.toNat), (4, x.2.lastTime.toNat),
    (1, (byte x.2.hits).toNat), (6, x.2.seen.toNat)]

theorem find_fields (r : FindResult) :
    (FindState.answer (.done r)).2 = fieldsOf r.headFields ++ r.copies.flatMap copyBytes := by
  simp only [FindState.answer, FindResult.headFields, placeBytes_eq, fieldsOf_cons, fieldsOf_nil, ← beBytes_byte,
    List.cons_append, List.nil_append, List.append_assoc, List.append_nil]

theorem copyBytes_fields (x : Nat × FpEntry) : copyBytes x = fieldsOf (copyFields x) := by
  simp only [copyBytes, copyFields, fieldsOf_cons, fieldsOf_nil, ← beBytes_byte, List.cons_append, List.nil_append,
    List.append_assoc, List.append_nil]

theorem copyBytes_length (x : Nat × FpEntry) : (copyBytes x).length = 21 := by
  rw [copyBytes_fields, fieldsOf_length]
  rfl

theorem flatMap_copyBytes_length (xs : List (Nat × FpEntry)) : (xs.flatMap copyBytes).length = 21 * xs.length := by
  rw [List.length_flatMap, List.map_congr_left fun x _ => copyBytes_length x, List.map_const', List.sum_replicate, smul_eq_mul,
    Nat.mul_comm]

theorem findHead_length (r : FindResult) : (fieldsOf r.headFields).length = 8 := fieldsOf_length _

/-- The copy of an index stands behind the head and the copies before it. -/
theorem copy_stands {r : FindResult} {i : Nat} {x : Nat × FpEntry} (hi : r.copies[i]? = some x) :
    StandAt (FindState.answer (.done r)).2 (8 + 21 * i) (copyFields x) := by
  obtain ⟨hlt, hx⟩ := List.getElem?_eq_some_iff.mp hi
  refine ⟨fieldsOf r.headFields ++ (r.copies.take i).flatMap copyBytes, (r.copies.drop (i + 1)).flatMap copyBytes, ?_, ?_⟩
  · rw [find_fields, ← copyBytes_fields]
    conv_lhs => rw [← List.take_append_drop i r.copies, List.drop_eq_getElem_cons hlt, hx]
    rw [List.flatMap_append, List.flatMap_cons, List.append_assoc]
  · rw [List.length_append, findHead_length, flatMap_copyBytes_length, List.length_take, Nat.min_eq_left (Nat.le_of_lt hlt)]

/-! ### Port views (R8, R186) -/

/-- The four marks of a port view. -/
def viewMarks (mapped up caused stamped : Bool) : Byte :=
  byte ((if mapped then 128 else 0) + (if up then 64 else 0) + (if caused then 32 else 0) + (if stamped then 16 else 0))

theorem viewMarks_bits : ∀ mapped up caused stamped : Bool, (viewMarks mapped up caused stamped).getLsbD 7 = mapped
    ∧ (viewMarks mapped up caused stamped).getLsbD 6 = up ∧ (viewMarks mapped up caused stamped).getLsbD 5 = caused
    ∧ (viewMarks mapped up caused stamped).getLsbD 4 = stamped := by decide

/-- The fields of a port view: the port, whether it is mapped, its record and its per-port byte, and the age of its last
link-up. -/
def viewFields (p : Port) (mapped : Bool) (r : PortRec) (b : PortByte) (age : Nat) : List (Nat × Nat) :=
  [(1, (byte p.val).toNat), (1, (viewMarks mapped r.linkUp r.lastCause.isSome r.lastLinkUp.isSome).toNat),
    (1, (byte (r.mode.code * 16 + r.state.code)).toNat), (1, (byte (r.presented.rank * 16 + r.delivered.rank)).toNat),
    (2, r.level), (1, (byte (b.meter.val * 16 + b.slot.val)).toNat), (1, (byte (r.backlog * 16 + r.penalty)).toNat),
    (1, (byte r.echoScore).toNat), (2, r.hold), (1, (byte ((r.lastCause.map Cause.code).getD 0)).toNat), (4, age)]

theorem portView_fields (s : State) (p : Port) : s.portView p = fieldsOf (viewFields p (s.profile.reverse p).isSome (s.port p)
    s.profile.portBytes[p] (((s.port p).lastLinkUp.map s.age).getD 0)) := by
  unfold State.portView viewFields
  dsimp only
  generalize (s.port p).lastCause = cause
  generalize (s.port p).lastLinkUp = stamp
  cases cause <;> cases stamp <;>
    simp only [viewMarks, fieldsOf_cons, fieldsOf_nil, ← beBytes_byte, Option.map_none, Option.map_some, Option.getD_none,
      Option.getD_some, List.cons_append, List.nil_append, List.append_nil] <;> rfl

theorem PortRec.backlog_le {r : PortRec} (h : r.backlogOk = true) : r.backlog ≤ 3 := by
  unfold PortRec.backlogOk at h
  split at h <;> · have := of_decide_eq_true h; omega

set_option Elab.async false in
theorem mode_code_le (m : Mode) : m.code ≤ 2 := by cases m <;> decide

theorem state_code_le (st : PState) : st.code ≤ 5 := by cases st <;> decide

theorem rank_le (c : GateCode) : c.rank ≤ 2 := by cases c <;> decide

theorem nibbles_lt {a b : Nat} (ha : a < 16) (hb : b < 16) : a * 16 + b < 256 := by omega

theorem byte_ext {bs : List Byte} {i : Nat} {b : Byte} (h : beNat (bytesAt bs i 1) = b.toNat) : bs.getD i 0 = b :=
  BitVec.eq_of_toNat_eq ((beNat_byteAt bs i).symm.trans h)

theorem byte_getD {bs : List Byte} {i v : Nat} (h : beNat (bytesAt bs i 1) = v) : (bs.getD i 0).toNat = v :=
  (beNat_byteAt bs i).symm.trans h

/-- A port view in its places (R8, R186). -/
theorem view_layout {p : Port} {mapped : Bool} {r : PortRec} {b : PortByte} {age : Nat} {v : List Byte}
    (hv : v = fieldsOf (viewFields p mapped r b age)) (hbacklog : r.backlog ≤ 3) (hbounded : r.bounded) (hhold : r.hold ≤ 36000)
    (hage : age < 256 ^ 4) :
    v.length = 16 ∧ (v.getD 0 0).toNat = p.val ∧ (v.getD 1 0).getLsbD 7 = mapped ∧ (v.getD 1 0).getLsbD 6 = r.linkUp
      ∧ (v.getD 1 0).getLsbD 5 = r.lastCause.isSome ∧ (v.getD 1 0).getLsbD 4 = r.lastLinkUp.isSome
      ∧ (v.getD 2 0).toNat = r.mode.code * 16 + r.state.code
      ∧ (v.getD 3 0).toNat = r.presented.rank * 16 + r.delivered.rank
      ∧ beNat (bytesAt v 4 2) = r.level ∧ (v.getD 6 0).toNat = b.meter.val * 16 + b.slot.val
      ∧ (v.getD 7 0).toNat = r.backlog * 16 + r.penalty ∧ (v.getD 8 0).toNat = r.echoScore
      ∧ beNat (bytesAt v 9 2) = r.hold ∧ (v.getD 11 0).toNat = (r.lastCause.map Cause.code).getD 0
      ∧ beNat (bytesAt v 12 4) = age := by
  obtain ⟨level, score, penalty⟩ := hbounded
  have below {x m n : Nat} (h : x ≤ m) (hn : Nat.blt m n = true) : x < n := Nat.lt_of_le_of_lt h (Nat.blt_eq.mp hn)
  have caused : (r.lastCause.map Cause.code).getD 0 < 256 := by
    cases r.lastCause with
    | none => exact Nat.zero_lt_succ _
    | some c => exact below c.code_le rfl
  have marks : v.getD 1 0 = viewMarks mapped r.linkUp r.lastCause.isSome r.lastLinkUp.isSome :=
    byte_ext (field_byte hv 1 rfl rfl rfl)
  obtain ⟨hmapped, up, cause, stamp⟩ := viewMarks_bits mapped r.linkUp r.lastCause.isSome r.lastLinkUp.isSome
  rw [← marks] at hmapped up cause stamp
  have nibbles (k place : Nat) {x y : Nat} (hk : (viewFields p mapped r b age)[k]? = some (1, (byte (x * 16 + y)).toNat))
      (hp : placeOf (viewFields p mapped r b age) k = place) (hx : x < 16) (hy : y < 16) :
      (v.getD place 0).toNat = x * 16 + y := byte_getD (field_byte hv k hk hp (byte_toNat (nibbles_lt hx hy)))
  exact ⟨by rw [hv, fieldsOf_length]; rfl, byte_getD (field_byte hv 0 rfl rfl (byte_toNat (p.isLt.trans (by decide)))), hmapped,
    up, cause, stamp, nibbles 2 2 rfl rfl (below (mode_code_le _) rfl) (below (state_code_le _) rfl),
    nibbles 3 3 rfl rfl (below (rank_le _) rfl) (below (rank_le _) rfl), field_whole hv 4 rfl rfl (Nat.lt_succ_of_le level),
    nibbles 5 6 rfl rfl (b.meter.isLt.trans (by decide)) b.slot.isLt,
    nibbles 6 7 rfl rfl (below hbacklog rfl) (below penalty rfl), byte_getD (field_byte hv 7 rfl rfl (byte_toNat (below score rfl))),
    field_whole hv 8 rfl rfl (below hhold rfl), byte_getD (field_byte hv 9 rfl rfl (byte_toNat caused)),
    field_whole hv 10 rfl rfl hage⟩

/-! ### The responses (R183, R185 to R189) -/

/-- The ten bytes of READ_IDENT in their places (R187). -/
theorem ident_layout (s : State) :
    let i := s.identBytes
    i.length = 10 ∧ beNat (bytesAt i 0 5) = s.unitNumber.toNat ∧ beNat (bytesAt i 5 1) = s.runNumber.toNat
      ∧ beNat (bytesAt i 6 1) = s.store.condition.code.toNat ∧ beNat (bytesAt i 7 1) = s.store.loadResult.code.toNat
      ∧ beNat (bytesAt i 8 1) = (if s.store.windowConflict then 1 else 0)
      ∧ beNat (bytesAt i 9 1) = s.store.saveResult.code.toNat := by
  intro i
  have hi : i = fieldsOf s.identFields := identBytes_fields s
  exact ⟨by rw [hi, fieldsOf_length]; rfl, field_whole hi 0 rfl rfl s.unitNumber.isLt,
    field_byte hi 1 rfl rfl (byte_toNat (s.runNumber.isLt.trans (by decide))), field_byte hi 2 rfl rfl rfl,
    field_byte hi 3 rfl rfl rfl, field_byte hi 4 rfl rfl (flagByte_toNat _), field_byte hi 5 rfl rfl rfl⟩

/-- The bytes of READ_STATUS before the tap states (R187). -/
theorem statusHead_layout {s : State} (hs : s.probes.length ≤ 64) :
    let v := s.statusBytes
    beNat (bytesAt v 0 1) = (if s.running then 1 else 0) ∧ beNat (bytesAt v 1 2) = s.epoch.toNat
      ∧ beNat (bytesAt v 3 1) = (portByte s.firstDeferred).toNat ∧ beNat (bytesAt v 4 1) = s.probes.length
      ∧ beNat (bytesAt v 5 1) = s.slotIndex.val ∧ beNat (bytesAt v 6 2) = s.seqCounter.toNat
      ∧ beNat (bytesAt v 8 1) = s.runNumber.toNat := by
  intro v
  have head := (status_places s).1
  exact ⟨head.readByte 0 rfl rfl (flagByte_toNat _), head.read 1 rfl rfl s.epoch.isLt, head.readByte 2 rfl rfl rfl,
    head.readByte 3 rfl rfl (byte_toNat (hs.trans_lt (by decide))),
    head.readByte 4 rfl rfl (byte_toNat (s.slotIndex.isLt.trans (by decide))), head.read 5 rfl rfl s.seqCounter.isLt,
    head.readByte 6 rfl rfl (byte_toNat (s.runNumber.isLt.trans (by decide)))⟩

/-- The bytes of READ_STATUS behind the poll states (R187). -/
theorem statusTail_layout {s : State} (hs : s.classLevel ≤ 1048575) :
    let v := s.statusBytes
    beNat (bytesAt v 31 3) = s.classLevel ∧ beNat (bytesAt v 34 1) = (if s.classTimer.isSome then 1 else 0)
      ∧ beNat (bytesAt v 35 1) = s.find.code.toNat ∧ beNat (bytesAt v 36 1) = (ownerByte s.holdOwner).toNat := by
  intro v
  obtain ⟨-, -, -, -, -, tail⟩ := status_places s
  exact ⟨tail.read 0 rfl rfl (hs.trans_lt (by decide)), tail.readByte 1 rfl rfl (flagByte_toNat _), tail.readByte 2 rfl rfl rfl,
    tail.readByte 3 rfl rfl rfl⟩

/-- READ_COUNTER in its places (R187). -/
theorem counter_layout (c : Counter) (hc : c.count ≤ 4294967295) :
    let b := c.bytes
    b.length = 6 ∧ censusKinds[beNat (bytesAt b 0 1)]? = some c.kind ∧ beNat (bytesAt b 1 1) = (portByte c.filter).toNat
      ∧ beNat (bytesAt b 2 4) = c.count := by
  intro b
  have hb : b = fieldsOf c.fields := c.bytes_fields
  have kind : beNat (bytesAt b 0 1) = (byte c.kind.code).toNat := field_byte hb 0 rfl rfl rfl
  exact ⟨by rw [hb, fieldsOf_length]; rfl, by rw [kind, censusKinds_code], field_byte hb 1 rfl rfl rfl,
    field_whole hb 2 rfl rfl (Nat.lt_succ_of_le hc)⟩

/-- A FIND result in its places (R188). -/
theorem find_layout (r : FindResult) (hc : r.count ≤ 1024) (hn : r.copies.length ≤ 8) :
    let b := (FindState.answer (.done r)).2
    b.length = 8 + 21 * r.copies.length ∧ beNat (bytesAt b 0 1) = 2
      ∧ beNat (bytesAt b 1 1) = (r.target.map (·.val)).getD 255
      ∧ beNat (bytesAt b 2 1) = (starterByte r.starter).toNat
      ∧ beNat (bytesAt b 3 2) = r.count ∧ (r.first.getD 65535 < 65536 → beNat (bytesAt b 5 2) = r.first.getD 65535)
      ∧ beNat (bytesAt b 7 1) = r.copies.length := by
  intro b
  have hb : b = fieldsOf r.headFields ++ r.copies.flatMap copyBytes := find_fields r
  have head : StandAt b 0 r.headFields := .first hb
  exact ⟨by rw [hb, List.length_append, findHead_length, flatMap_copyBytes_length], head.readByte 0 rfl rfl rfl,
    head.readByte 1 rfl rfl (portByte_toNat _), head.readByte 2 rfl rfl rfl, head.read 3 rfl rfl (hc.trans_lt (by decide)),
    head.read 4 rfl rfl, head.readByte 5 rfl rfl (byte_toNat (hn.trans_lt (by decide)))⟩

set_option Elab.async false in
/-- A copy of a FIND result in its places (R188). -/
theorem copy_layout {r : FindResult} {k place : Nat} {e : FpEntry} (hk : r.copies[k]? = some (place, e)) (hp : place < 1024)
    (hh : e.hits ≤ 15) :
    let b := (FindState.answer (.done r)).2
    let at' := 8 + 21 * k
    beNat (bytesAt b at' 2) = place ∧ beNat (bytesAt b (at' + 2) 3) = e.tag.toNat
      ∧ beNat (bytesAt b (at' + 5) 1) = e.first.val ∧ beNat (bytesAt b (at' + 6) 4) = e.firstTime.toNat
      ∧ beNat (bytesAt b (at' + 10) 4) = e.lastTime.toNat ∧ beNat (bytesAt b (at' + 14) 1) = e.hits
      ∧ beNat (bytesAt b (at' + 15) 6) = e.seen.toNat := by
  intro b at'
  have copy : StandAt b at' (copyFields (place, e)) := copy_stands hk
  exact ⟨copy.read 0 rfl rfl (hp.trans (by decide)), copy.read 1 rfl rfl e.tag.isLt,
    copy.readByte 2 rfl rfl (byte_toNat (e.first.isLt.trans (by decide))), copy.read 3 rfl rfl e.firstTime.isLt,
    copy.read 4 rfl rfl e.lastTime.isLt, copy.readByte 5 rfl rfl (byte_toNat (hh.trans_lt (by decide))),
    copy.read 6 rfl rfl e.seen.isLt⟩

/-- Settles O9. -/
theorem responsesHaveTheirLayouts : Obligations.ResponsesHaveTheirLayouts := by
  refine ⟨fun s hports hok hlist htaps hcounts => ?_, fun x hl hp hh => ?_, fun r hc hn => ?_,
    fun s p hs hok => ?_, rfl, rfl, rfl, rfl, rfl, rfl⟩
  · intro i v port flag tap poll
    obtain ⟨classLevel, counted, ageA, ageB⟩ := hcounts
    obtain ⟨okA, okB, -⟩ := htaps
    obtain ⟨-, tapA, tapB, pollA, pollB, -⟩ := status_places s
    have named (x : Option Port) : (portByte x).toNat = port x := by
      cases x with
      | none => rfl
      | some p => exact byte_toNat (p.isLt.trans (by decide))
    have polled {x : PollRec} {k : Nat} (h : StandAt v k x.fields) (hx : x.age ≤ 65535) : poll x k := by
      obtain ⟨phase, silent, age⟩ := poll_layout h hx
      exact ⟨phase.trans (by cases x.phase <;> rfl), silent, age⟩
    obtain ⟨i0, i1, i2, i3, i4, i5, i6⟩ := ident_layout s
    obtain ⟨v0, v1, v2, v3, v4, v5, v6⟩ := statusHead_layout hlist.1
    obtain ⟨w0, w1, w2, w3⟩ := statusTail_layout classLevel
    refine ⟨i0, i1, i2, i3.trans ?_, i4.trans ?_, i5, i6.trans ?_, statusBytes_length s, v0, v1, v2.trans (named _), v3, v4, v5, v6,
      tap_layout tapA okA, tap_layout tapB okB, polled pollA ageA, polled pollB ageB, w0, w1, w2.trans ?_, w3.trans ?_,
      image_length s.profile, fun n => ?_⟩
    · cases s.store.condition <;> rfl
    · cases s.store.loadResult <;> rfl
    · cases s.store.saveResult <;> rfl
    · cases s.find <;> rfl
    · rcases s.holdOwner with - | owner
      · rfl
      · cases owner <;> rfl
    · obtain ⟨c0, c1, c2, c3⟩ := counter_layout s.counters[n] (counted n)
      exact ⟨c0, c1, c2.trans (named _), c3⟩
  · obtain ⟨h0, h1, h2, h3, h4, h5, h6, h7, h8, h9, h10, h11, h12, h13⟩ := incident_layout x hl hp hh
    refine ⟨h0, h1, h2, h3, h4, h5, h6, h7, h8, h9, h10, h11, h12, h13.trans ?_⟩
    rcases x.purpose with - | purpose
    · rfl
    · cases purpose <;> rfl
  · obtain ⟨h0, h1, h2, h3, h4, h5, h6⟩ := find_layout r hc hn
    refine ⟨h0, h1, h2, h3.trans (by cases r.starter <;> rfl), h4, fun n hlt hf => ?_, fun hf => ?_, h6,
      fun k place e hk hplace hhits => copy_layout hk hplace hhits⟩
    · have first : r.first.getD 65535 = n := by rw [hf]; rfl
      exact (h5 (first.trans_lt (hlt.trans (by decide)))).trans first
    · have first : r.first.getD 65535 = 65535 := by rw [hf]; rfl
      exact (h5 (first.trans_lt (by decide))).trans first
  · obtain ⟨-, backlog, -, ⟨hold, -⟩, -, bounded, -, -⟩ := hs.1 p
    obtain ⟨-, -, ranged, -, -⟩ := s.profile.ok_iff.mp hok
    have age : ((s.port p).lastLinkUp.map s.age).getD 0 < 256 ^ 4 := by
      cases (s.port p).lastLinkUp with
      | none => exact Nat.pow_pos (by decide)
      | some t => exact (s.msTime - t).isLt
    exact view_layout (portView_fields s p) (PortRec.backlog_le backlog) bounded (hold.trans ranged.hmax.2) age

end Sys2Proof.Machine
end
